-- ==== Sys2Proof/Word.lean ====
section
/-! DEFINITION. The words of the block: a byte, the 144-bit frame vector, and the 18-byte frame buffer (00_scope.md R5, R6;
10_state.md R10). -/

namespace Sys2Proof

/-- A byte is 8 bits, bit 0 its least significant (R6). -/
abbrev Byte := BitVec 8

/-- The frame vector `F`: 144 bits numbered 0 to 143 (R6, R20). -/
abbrev FrameBits := BitVec 144

/-- The contents of the frame buffer `FB`: 18 bytes, byte 0 the first one the transport delivered (R10). A number of bytes other
than 18 is no value of this type (93_implementation_defined.md U17). -/
abbrev FrameBuffer := Vector Byte 18

end Sys2Proof
end

