-- ==== Sys2Proof/Syntax.lean ====
section
/-! DEFINITION. The decoded frame (10_state.md R12) and the operations of the block, one constructor for each row of
spec/opcode_table.json (30_encoding.md R34). -/

namespace Sys2Proof

/-- The decoded frame: the thirteen outputs of R12, in the order of that table. An unsigned field is a bit vector of its width, read as
its unsigned value; the motion deltas are signed integers (R7 `s16`), in range when `Frame.inRange` says so. -/
structure Frame where
  chRX : BitVec 11
  chRY : BitVec 11
  chLX : BitVec 11
  chLY : BitVec 11
  swL : BitVec 2
  swR : BitVec 2
  x : Int
  y : Int
  z : Int
  pressL : BitVec 8
  pressR : BitVec 8
  key : BitVec 16
  res : BitVec 16
  deriving DecidableEq, Repr

/-- The operations of the block: one constructor for each row of the operation table, in the table's order. -/
inductive Instr where
  /-- `FRAME`: a whole wire frame given to the block (R31; decision D17: the wire frame is the instruction word) -/
  | frame (w : FrameBits)
  /-- `EXT.ch_r_x` (R40) -/
  | extChRX
  /-- `EXT.ch_r_y` (R41) -/
  | extChRY
  /-- `EXT.ch_l_x` (R42) -/
  | extChLX
  /-- `EXT.ch_l_y` (R43) -/
  | extChLY
  /-- `EXT.sw_a`, the lower switch pair (R44) -/
  | extSwA
  /-- `EXT.sw_b`, the upper switch pair (R45) -/
  | extSwB
  /-- `EXT.x` (R47) -/
  | extX
  /-- `EXT.y` (R48) -/
  | extY
  /-- `EXT.z` (R49) -/
  | extZ
  /-- `EXT.press_l` (R50) -/
  | extPressL
  /-- `EXT.press_r` (R51) -/
  | extPressR
  /-- `EXT.key` (R52) -/
  | extKey
  /-- `EXT.res` (R53) -/
  | extRes
  /-- `MAP.sw` (R46) -/
  | mapSw
  /-- `DECODE` (R54) -/
  | decode
  /-- `ENCODE` of a frame record (R55) -/
  | encode (f : Frame)
  /-- `CHK.ch_r_x` (R60) -/
  | chkChRX
  /-- `CHK.ch_r_y` (R61) -/
  | chkChRY
  /-- `CHK.ch_l_x` (R62) -/
  | chkChLX
  /-- `CHK.ch_l_y` (R63) -/
  | chkChLY
  /-- `CHK.sw_l` (R64) -/
  | chkSwL
  /-- `CHK.sw_r` (R65) -/
  | chkSwR
  /-- `VALID` (R66) -/
  | valid
  /-- `RST` (R70) -/
  | rst
  /-- `LOAD b0 .. b17`: exactly 18 operand bytes, by type (R71, U17) -/
  | load (b : FrameBuffer)
  /-- `OBS` (R72) -/
  | obs
  deriving DecidableEq, Repr

end Sys2Proof
end

