-- ==== Sys2Proof/WellFormed.lean ====
section
/-! DEFINITION. Which frame records and which operations are well formed: "A field value outside the range of its width is not a frame
and `ENCODE` is not defined on it" (40_frame_decode.md R55). The unsigned fields are in range by type. -/

namespace Sys2Proof

/-- A motion delta is in the range of its width, -32768..32767 (10_state.md R12). -/
def axisInRange (v : Int) : Bool :=
  decide (-32768 ≤ v) && decide (v ≤ 32767)

/-- Every field of the frame record is in the range of its width (R12, R55). -/
def Frame.inRange (f : Frame) : Bool :=
  axisInRange f.x && axisInRange f.y && axisInRange f.z

/-- The operation's operands are values the spec defines it on. -/
def Instr.wellFormed : Instr → Bool
  | .frame _ => true
  | .extChRX => true
  | .extChRY => true
  | .extChLX => true
  | .extChLY => true
  | .extSwA => true
  | .extSwB => true
  | .extX => true
  | .extY => true
  | .extZ => true
  | .extPressL => true
  | .extPressR => true
  | .extKey => true
  | .extRes => true
  | .mapSw => true
  | .decode => true
  | .encode f => f.inRange
  | .chkChRX => true
  | .chkChRY => true
  | .chkChLX => true
  | .chkChLY => true
  | .chkSwL => true
  | .chkSwR => true
  | .valid => true
  | .rst => true
  | .load _ => true
  | .obs => true

end Sys2Proof
end

