-- ==== Sys2Proof/Decode.lean ====
section
/-! DEFINITION. From bytes to the frame vector and back (20_memory.md R20), the decoder of the one instruction word there is, the
18-byte wire frame (30_encoding.md R30, R31), its encoder, and the operation table's selection data (R34). -/

namespace Sys2Proof

/-- The unsigned value of a byte list, first byte least significant (R20: `u(F) = Σ u(FB[j]) * 256^j`). -/
def littleEndian : List Byte → Nat
  | [] => 0
  | b :: bs => b.toNat + 256 * littleEndian bs

/-- The frame vector `F` of a frame buffer (R20). The one place where the bit order of decision D2 is coded on the way in. -/
def frameBits (b : FrameBuffer) : FrameBits :=
  BitVec.ofNat 144 (littleEndian b.toList)

/-- The frame buffer of a frame vector, `FB[j] = F[8j+7 : 8j]` (R20, R55). -/
def frameBytes (w : FrameBits) : FrameBuffer :=
  Vector.ofFn fun j => w.extractLsb' (8 * j.val) 8

/-- The first 18 bytes of a byte sequence, and what follows them (R30: a frame is always 18 bytes). -/
def takeFrame (bs : List Byte) : Option (FrameBuffer × List Byte) :=
  if h : 18 ≤ bs.length then
    some (⟨(bs.take 18).toArray, by simp [h]⟩, bs.drop 18)
  else
    none

/-- Why the decoder rejects a byte sequence. -/
inductive DecodeError where
  /-- fewer than the 18 bytes of a wire frame: "the block is never given a partial frame" (R71, U17) -/
  | partialFrame (got : Nat)
  deriving DecidableEq, Repr

/-- Read one instruction word from a byte sequence. There is one format, `FRAME144`, with no fixed bit (R30, R35): any 18 bytes are
a wire frame, and fewer are rejected by name. No pattern of bits selects any other row (R34; log 10). -/
def decode (bs : List Byte) : Except DecodeError (Instr × List Byte) :=
  match takeFrame bs with
  | some (b, rest) => .ok (.frame (frameBits b), rest)
  | none => .error (.partialFrame bs.length)

/-- The bytes of an operation that has an encoding. Only the wire frame has one: "Encodings of the *operations themselves* do not
exist" (R38). -/
def encode : Instr → Option (List Byte)
  | .frame w => some (frameBytes w).toList
  | .extChRX => none
  | .extChRY => none
  | .extChLX => none
  | .extChLY => none
  | .extSwA => none
  | .extSwB => none
  | .extX => none
  | .extY => none
  | .extZ => none
  | .extPressL => none
  | .extPressR => none
  | .extKey => none
  | .extRes => none
  | .mapSw => none
  | .decode => none
  | .encode _ => none
  | .chkChRX => none
  | .chkChRY => none
  | .chkChLX => none
  | .chkChLY => none
  | .chkSwL => none
  | .chkSwR => none
  | .valid => none
  | .rst => none
  | .load _ => none
  | .obs => none

/-- A bit range `F[hi:lo]`, both ends inclusive (R6). -/
structure BitRange where
  hi : Nat
  lo : Nat
  deriving DecidableEq, Repr

/-- The format column of the operation table. -/
inductive RowFormat where
  | frame144
  | op
  deriving DecidableEq, Repr

/-- A row of the operation table: which words select it, and the bit positions it reads. -/
structure TableRow where
  format : RowFormat
  mask : FrameBits
  pattern : FrameBits
  reads : List BitRange
  deriving DecidableEq, Repr

/-- A row of the format `FRAME144`: `mask = 0` and `match = 0`, "always selected" (R34). -/
def alwaysRow (reads : List BitRange) : TableRow :=
  { format := .frame144, mask := 0, pattern := 0, reads := reads }

/-- A row of the format `OP`: no bit pattern, and an empty `fields` object (R38). -/
def transactionRow : TableRow :=
  { format := .op, mask := 0, pattern := 0, reads := [] }

/-- Where `sw_l` lies (R64): the lower pair when `SW_L_FIRST` is true, else the upper one. -/
def swLRange (swLFirst : Bool) : BitRange :=
  if swLFirst then ⟨45, 44⟩ else ⟨47, 46⟩

/-- Where `sw_r` lies (R65): the upper pair when `SW_L_FIRST` is true, else the lower one. -/
def swRRange (swLFirst : Bool) : BitRange :=
  if swLFirst then ⟨47, 46⟩ else ⟨45, 44⟩

/-- The operation table (spec/opcode_table.json; R31, R34), for either value of `SW_L_FIRST`. -/
def tableRow (swLFirst : Bool) : Instr → TableRow
  | .frame _ => alwaysRow [⟨143, 0⟩]
  | .extChRX => alwaysRow [⟨10, 0⟩]
  | .extChRY => alwaysRow [⟨21, 11⟩]
  | .extChLX => alwaysRow [⟨32, 22⟩]
  | .extChLY => alwaysRow [⟨43, 33⟩]
  | .extSwA => alwaysRow [⟨45, 44⟩]
  | .extSwB => alwaysRow [⟨47, 46⟩]
  | .extX => alwaysRow [⟨63, 48⟩]
  | .extY => alwaysRow [⟨79, 64⟩]
  | .extZ => alwaysRow [⟨95, 80⟩]
  | .extPressL => alwaysRow [⟨103, 96⟩]
  | .extPressR => alwaysRow [⟨111, 104⟩]
  | .extKey => alwaysRow [⟨127, 112⟩]
  | .extRes => alwaysRow [⟨143, 128⟩]
  | .mapSw => alwaysRow [⟨45, 44⟩, ⟨47, 46⟩]
  | .decode => alwaysRow [⟨143, 0⟩]
  | .encode _ => alwaysRow [⟨143, 0⟩]
  | .chkChRX => alwaysRow [⟨10, 0⟩]
  | .chkChRY => alwaysRow [⟨21, 11⟩]
  | .chkChLX => alwaysRow [⟨32, 22⟩]
  | .chkChLY => alwaysRow [⟨43, 33⟩]
  | .chkSwL => alwaysRow [swLRange swLFirst]
  | .chkSwR => alwaysRow [swRRange swLFirst]
  | .valid => alwaysRow [⟨47, 0⟩]
  | .rst => transactionRow
  | .load _ => transactionRow
  | .obs => transactionRow

/-- A word selects a row when its bits under the row's mask are the row's pattern. -/
def TableRow.selectedBy (r : TableRow) (w : FrameBits) : Bool :=
  (w &&& r.mask) == r.pattern

/-- The bytes of a table word of `nbits` bits, first byte least significant: at least one whole frame, the bits above `nbits` zero. -/
def tableWordBytes (nbits w : Nat) : List Byte :=
  (List.range (max 18 ((nbits + 7) / 8))).map fun j => BitVec.ofNat 8 ((w % 2 ^ nbits) / 2 ^ (8 * j))

/-- What the decoder reads from a table word: the instruction, when the word is one whole wire frame. -/
def decodeTableWord (nbits w : Nat) : Option Instr :=
  match decode (tableWordBytes nbits w) with
  | .ok (i, []) => some i
  | _ => none

end Sys2Proof
end

