-- ==== Sys2Proof/Config.lean ====
section
/-! DEFINITION. What is fixed for one machine: the record of parameters (00_scope.md R5), the parameters the spec leaves OPEN, and the
free values of the environment. An opaque constant has no body a proof could see: a statement about it holds for every value. -/

namespace Sys2Proof

/-- How frame bits map to byte bits (R5 `BIT_ORDER`; decision D2). -/
inductive BitOrder where
  | lsbFirstLittleEndian
  deriving DecidableEq, Repr

/-- The representation of the signed fields (R5 `SIGNED_REP`; decision D4). -/
inductive SignedRep where
  | twosComplement
  deriving DecidableEq, Repr

/-- A parity setting of the serial line. -/
inductive Parity where
  | none
  | even
  | odd
  deriving DecidableEq, Repr

/-- The transport's configuration, "fixed, set once at construction" (43_environment_contract.md R88). -/
structure LineConfig where
  baud : Nat
  parity : Parity
  dataBits : Nat
  stopBits : Nat
  deriving DecidableEq, Repr

/-- The parameters of R5, one field a row. `Sys2Proof.Machine.params` gives them their values. -/
structure Params where
  frameBytes : Nat
  frameBits : Nat
  chCount : Nat
  chWidth : Nat
  chMin : Nat
  chMax : Nat
  chCenter : Nat
  swCount : Nat
  swWidth : Nat
  swInvalid : Nat
  axisWidth : Nat
  pressWidth : Nat
  keyWidth : Nat
  resWidth : Nat
  bitOrder : BitOrder
  swLFirst : Bool
  signedRep : SignedRep
  backoffUnits : Nat
  line : LineConfig
  transportTimeout : Bool
  nKeycodes : Nat
  deriving DecidableEq, Repr

/-- `SW_L_FIRST`, OPEN (R5, R46, decision D3): whether `sw_l` is the lower switch pair. Not fixed here, so no statement can rest on
either value (log 3). Safe. -/
opaque Config.swLFirst : Bool

/-- `TRANSPORT_TIMEOUT`, OPEN (R5, R84, decision D16): whether the transport's read can return without 18 fresh bytes (log 14). Safe. -/
opaque Config.transportTimeout : Bool

/-- Whether the hardware registry holds the transport (R90). The platform decides; not fixed here (log 16). Safe. -/
opaque Config.transportPresent : Bool

/-- The integer the key-code enumeration starts at, OPEN (R91, U16, decision D20; log 21). Safe. -/
opaque Config.keyCodeBase : Int

/-- What the environment does in one step of the acquisition loop: the free values of that step (log 13, log 14). -/
structure EnvDraw where
  /-- the bytes that arrive at the transport (R85, R88; U13, U15: any value) -/
  arrived : List Byte
  /-- whether the transport gives up a read that lacks bytes, if it can at all (R84) -/
  timesOut : Bool
  /-- the 18 bytes handed to `LOAD` after such an early return: a draw (D16, U5) -/
  frame : FrameBuffer
  /-- what the receive buffer holds after such an early return (not in the source, N17) -/
  rxAfter : List Byte
  deriving DecidableEq, Repr, Inhabited

/-- The environment's free values, one draw for each value of the counter `State.draws` (log 13). Safe. -/
opaque Config.draw : Nat → EnvDraw

end Sys2Proof
end

