-- ==== Sys2Proof/Machine/Params.lean ====
section
/-! DEFINITION. The values of the parameters (00_scope.md R5), taken from the document as written (decision D22, log 5). -/

namespace Sys2Proof.Machine

/-- The parameter table of R5. The two OPEN rows are the opaque constants of Config. -/
def params : Params where
  frameBytes := 18
  frameBits := 144
  chCount := 4
  chWidth := 11
  chMin := 364
  chMax := 1684
  chCenter := 1024
  swCount := 2
  swWidth := 2
  swInvalid := 0
  axisWidth := 16
  pressWidth := 8
  keyWidth := 16
  resWidth := 16
  bitOrder := .lsbFirstLittleEndian
  swLFirst := Config.swLFirst
  signedRep := .twosComplement
  backoffUnits := 3
  line := { baud := 100000, parity := .even, dataBits := 8, stopBits := 1 }
  transportTimeout := Config.transportTimeout
  nKeycodes := 26

end Sys2Proof.Machine
end

