-- ==== Sys2Proof/Machine/Flags.lean ====
section
/-! DEFINITION. The validator: the six internal terms and the block's one status output `corrupted` (41_validator.md R60 to R66). -/

namespace Sys2Proof.Machine

/-- A channel value lies in the operating window, both bounds inclusive, compared as unsigned integers (R60, R67). -/
def inWindow (v : BitVec 11) : Bool :=
  decide (params.chMin ≤ v.toNat) && decide (v.toNat ≤ params.chMax)

/-- A switch value is not the invalid one (R64). -/
def switchPresent (v : BitVec 2) : Bool :=
  decide (v.toNat ≠ params.swInvalid)

/-- `ok_ch_r_x` (R60). -/
def okChRX (f : Frame) : Bool := inWindow f.chRX

/-- `ok_ch_r_y` (R61). -/
def okChRY (f : Frame) : Bool := inWindow f.chRY

/-- `ok_ch_l_x` (R62). -/
def okChLX (f : Frame) : Bool := inWindow f.chLX

/-- `ok_ch_l_y` (R63). -/
def okChLY (f : Frame) : Bool := inWindow f.chLY

/-- `ok_sw_l` (R64). -/
def okSwL (f : Frame) : Bool := switchPresent f.swL

/-- `ok_sw_r` (R65). -/
def okSwR (f : Frame) : Bool := switchPresent f.swR

/-- `corrupted`: true rejects the frame (R66). -/
def corruptedOf (f : Frame) : Bool :=
  !(okChRX f && okChRY f && okChLX f && okChLY f && okSwL f && okSwR f)

end Sys2Proof.Machine
end

