-- ==== Sys2Proof/Machine/Operands.lean ====
section
/-! DEFINITION. The thirteen field extractions as slices of the frame vector (30_encoding.md R31, 40_frame_decode.md R40 to R53), the switch
mapping (R46), the whole-frame `DECODE` (R54) and its inverse `ENCODE` (R55). Each function of the switch order takes it as an argument. -/

namespace Sys2Proof.Machine

/-- `F[10:0]` (R40). -/
def sliceChRX (w : FrameBits) : BitVec 11 := w.extractLsb' 0 11

/-- `F[21:11]` (R41). -/
def sliceChRY (w : FrameBits) : BitVec 11 := w.extractLsb' 11 11

/-- `F[32:22]` (R42). -/
def sliceChLX (w : FrameBits) : BitVec 11 := w.extractLsb' 22 11

/-- `F[43:33]` (R43). -/
def sliceChLY (w : FrameBits) : BitVec 11 := w.extractLsb' 33 11

/-- `F[45:44]`, the lower switch pair (R44). -/
def sliceSwA (w : FrameBits) : BitVec 2 := w.extractLsb' 44 2

/-- `F[47:46]`, the upper switch pair (R45). -/
def sliceSwB (w : FrameBits) : BitVec 2 := w.extractLsb' 46 2

/-- `F[63:48]` (R47). -/
def sliceX (w : FrameBits) : BitVec 16 := w.extractLsb' 48 16

/-- `F[79:64]` (R48). -/
def sliceY (w : FrameBits) : BitVec 16 := w.extractLsb' 64 16

/-- `F[95:80]` (R49). -/
def sliceZ (w : FrameBits) : BitVec 16 := w.extractLsb' 80 16

/-- `F[103:96]` (R50). -/
def slicePressL (w : FrameBits) : BitVec 8 := w.extractLsb' 96 8

/-- `F[111:104]` (R51). -/
def slicePressR (w : FrameBits) : BitVec 8 := w.extractLsb' 104 8

/-- `F[127:112]` (R52). -/
def sliceKey (w : FrameBits) : BitVec 16 := w.extractLsb' 112 16

/-- `F[143:128]` (R53). -/
def sliceRes (w : FrameBits) : BitVec 16 := w.extractLsb' 128 16

/-- `s16(v)`: the two's-complement value of a 16-bit vector (00_scope.md R7, decision D4, log 4). -/
def s16 (v : BitVec 16) : Int :=
  if v.msb then (v.toNat : Int) - 65536 else (v.toNat : Int)

/-- The 16-bit pattern of a signed value, `v mod 65536` (R55). -/
def axisPattern (v : Int) : BitVec 16 := BitVec.ofInt 16 v

/-- `MAP.sw`: `(sw_l, sw_r)` from the two positional pairs (R46). -/
def mapSwitches (swLFirst : Bool) (swA swB : BitVec 2) : BitVec 2 × BitVec 2 :=
  if swLFirst then (swA, swB) else (swB, swA)

/-- `DECODE`: the frame record of a frame vector; total (R54). -/
def decodeFrame (swLFirst : Bool) (w : FrameBits) : Frame where
  chRX := sliceChRX w
  chRY := sliceChRY w
  chLX := sliceChLX w
  chLY := sliceChLY w
  swL := (mapSwitches swLFirst (sliceSwA w) (sliceSwB w)).1
  swR := (mapSwitches swLFirst (sliceSwA w) (sliceSwB w)).2
  x := s16 (sliceX w)
  y := s16 (sliceY w)
  z := s16 (sliceZ w)
  pressL := slicePressL w
  pressR := slicePressR w
  key := sliceKey w
  res := sliceRes w

/-- `ENCODE`: the frame vector of a frame record whose fields are in range (R55), the fields of R31 joined from the last to the first. -/
def encodeFrame (swLFirst : Bool) (f : Frame) : FrameBits :=
  f.res ++ f.key ++ f.pressR ++ f.pressL ++ axisPattern f.z ++ axisPattern f.y ++ axisPattern f.x
    ++ (if swLFirst then f.swR else f.swL) ++ (if swLFirst then f.swL else f.swR)
    ++ f.chLY ++ f.chLX ++ f.chRY ++ f.chRX

end Sys2Proof.Machine
end

