-- ==== Sys2Proof/Machine/State.lean ====
section
/-! DEFINITION. The state: the block's one piece of storage (10_state.md R10), the environment's state that R16 lists, and the model's
own carriers; the reasons a step can stop; the state after reset (R14, 70_reset_and_hazards.md R110, R111). -/

namespace Sys2Proof.Machine

/-- What one operation produces (30_encoding.md R34, column "produces"). Held in the worker's hands, not in the block (log 7). -/
inductive Result where
  /-- a channel value, `EXT.ch_*` (R40 to R43) -/
  | channel (v : BitVec 11)
  /-- a positional switch value, `EXT.sw_a`, `EXT.sw_b` (R44, R45) -/
  | switch (v : BitVec 2)
  /-- `(sw_l, sw_r)`, `MAP.sw` (R46) -/
  | switches (l r : BitVec 2)
  /-- a motion delta, `EXT.x`, `EXT.y`, `EXT.z` (R47 to R49) -/
  | delta (v : Int)
  /-- a press flag, `EXT.press_l`, `EXT.press_r` (R50, R51) -/
  | press (v : BitVec 8)
  /-- the key mask or the reserved field, `EXT.key`, `EXT.res` (R52, R53) -/
  | mask (v : BitVec 16)
  /-- the whole frame, `DECODE` (R54) -/
  | frame (f : Frame)
  /-- the packed frame vector, `ENCODE` (R55) -/
  | bits (w : FrameBits)
  /-- an internal `ok_*` term, `CHK.*` (R60 to R65); no part of an observation (R19) -/
  | term (ok : Bool)
  /-- `corrupted`, `VALID` (R66) -/
  | verdict (corrupted : Bool)
  /-- `(DECODE(F), corrupted)`, `OBS` (R72) -/
  | observation (f : Frame) (corrupted : Bool)
  /-- `OBS` while `FB` is `undef`: the observation "is **refused**: it has no value" (R72; 30_encoding.md R37 "yields (frame, corrupted) or
  "refused""; log 12) -/
  | refused
  /-- an output that holds no value: what every other operation that reads `FB` produces while `FB` is `undef` (R8, R14; log 12) -/
  | undef
  deriving DecidableEq, Repr

/-- The acquisition loop's states (43_environment_contract.md R80, R81), with the two steps that come before its first (R81 "start of the
worker"; R90 and 70_reset_and_hazards.md R111 items 1 and 2). -/
inductive LoopState where
  | construct
  | workerStart
  | resetStart
  | awaitFrame
  | validate
  | publish
  | resetRecover
  | backoff
  deriving DecidableEq, Repr

/-- One transaction of a worker's program (30_encoding.md R37; log 8). -/
inductive Transaction where
  /-- an operation -/
  | op (i : Instr)
  /-- raw bytes given to the block: one wire frame, if there are exactly 18 (R30, U17) -/
  | wire (bs : List Byte)
  deriving DecidableEq, Repr

/-- What the single worker runs (R75, R89): the acquisition loop, or a program of transactions in order (log 8). -/
inductive Worker where
  | loop (st : LoopState)
  | program (ts : List Transaction)
  deriving DecidableEq, Repr

/-- The transport's state that the environment's contract names (R85, R88). -/
structure Transport where
  /-- the receive buffer, oldest byte first -/
  rx : List Byte
  /-- the configuration, once it has been set -/
  line : Option LineConfig
  deriving DecidableEq, Repr

/-- The machine's state. -/
structure State where
  /-- `FB`, the block's only storage; `none` is the spec's `undef` (R10, R14) -/
  fb : Option FrameBuffer
  /-- what the last operation produced (the model's own, log 7) -/
  result : Option Result
  /-- what the worker runs (R75, R80) -/
  worker : Worker
  /-- the transport (R85, R88) -/
  transport : Transport
  /-- the backoff timer: scheduler time-units left (R16, R86) -/
  backoffLeft : Nat
  /-- what the publish channel last delivered (R16, R87) -/
  channel : Option Frame
  /-- how many publish events there have been (95_test_vectors.md Part 3, U14) -/
  publishes : Nat
  /-- how many free values the environment has drawn (the model's own, log 13) -/
  draws : Nat
  deriving DecidableEq, Repr

/-- The reasons for which the system stops with a fault. -/
inductive Fault where
  /-- Raised by the loop's construction step when the registry lacks the transport: "initialization aborts" (R90). The spec's own fatal
  error, so safe. The block itself raises nothing (60_exceptions.md R100). -/
  | transportMissing
  deriving DecidableEq, Repr

/-- The reasons for which a step has no value. -/
inductive Refusal where
  /-- No arm of `exec` answers it: every operation has its meaning. Safe. -/
  | notModelled (mnemonic : String)
  /-- Answered by a wire transaction whose bytes are not exactly 18 (R71, U17), and by `ENCODE` of a record with a field out of range, on which
  it "is not defined" (R55). Safe. -/
  | notAFrame
  deriving DecidableEq, Repr

/-- The state right after reset: `FB` holds no value (R14, R110), the worker is about to construct the instance (R111), and nothing has been
received, observed or published (log 17). -/
def State.reset : State where
  fb := none
  result := none
  worker := .loop .construct
  transport := { rx := [], line := none }
  backoffLeft := 0
  channel := none
  publishes := 0
  draws := 0

end Sys2Proof.Machine
end

