-- ==== Sys2Proof/Machine/Ops.lean ====
section
/-! DEFINITION. The named operations over the state: writing and voiding the frame buffer, reading and observing it, and the environment's updates. There
is no operation for taking an exception: the block raises none (60_exceptions.md R100, R104, R105). -/

namespace Sys2Proof.Machine

/-- What a step of this machine answers. -/
abbrev Answer := Host.Outcome State Fault Refusal

/-- All 18 bytes of `FB` are replaced in one atomic step (R24, R71). -/
def State.loadFb (b : FrameBuffer) (s : State) : State :=
  { s with fb := some b }

/-- Every byte of `FB` becomes `undef` (R70). -/
def State.voidFb (s : State) : State :=
  { s with fb := none }

/-- The operation produced `r` (log 7). -/
def State.produce (r : Result) (s : State) : State :=
  { s with result := some r }

/-- The operation produced nothing (log 7). -/
def State.produceNothing (s : State) : State :=
  { s with result := none }

/-- The acquisition loop enters `st` (R81). -/
def State.goto (st : LoopState) (s : State) : State :=
  { s with worker := .loop st }

/-- The transport's receive buffer becomes `bs`. -/
def State.setRx (bs : List Byte) (s : State) : State :=
  { s with transport := { s.transport with rx := bs } }

/-- The transport is configured (R88). -/
def State.configureLine (c : LineConfig) (s : State) : State :=
  { s with transport := { s.transport with line := some c } }

/-- The backoff timer is set. -/
def State.setBackoff (n : Nat) (s : State) : State :=
  { s with backoffLeft := n }

/-- One publish event: the channel delivers a copy of the frame, replacing what it last delivered (R87). -/
def State.broadcast (f : Frame) (s : State) : State :=
  { s with channel := some f, publishes := s.publishes + 1 }

/-- The transport receives what the environment sent in this step, and the draw is used up (R75, log 13). -/
def State.receive (d : EnvDraw) (s : State) : State :=
  { s with transport := { s.transport with rx := s.transport.rx ++ d.arrived }, draws := s.draws + 1 }

/-- The decoded outputs: a function of `FB`, without a value while `FB` has none (R12, R14). -/
def State.frame (s : State) : Option Frame :=
  s.fb.map fun b => decodeFrame params.swLFirst (frameBits b)

/-- The validator output: a function of `FB`, without a value while `FB` has none (R13, R14). -/
def State.corrupted (s : State) : Option Bool :=
  s.frame.map corruptedOf

/-- What a function of the frame vector gives: its value, and `absent` while `FB` is `undef`. -/
def State.outputOf (absent : Result) (g : FrameBits → Result) (s : State) : Result :=
  match s.fb with
  | some b => g (frameBits b)
  | none => absent

/-- An extraction, a mapping or a check: it produces a function of `FB`, in every state, and changes nothing else (R40 to R66); while `FB` is
`undef` the output is `undef` too (R14; log 12). -/
def readFb (g : FrameBits → Result) (s : State) : Answer :=
  .next (s.produce (s.outputOf .undef g))

/-- `(DECODE(F), corrupted)`, both from the same frame vector (R72). -/
def observationOf (w : FrameBits) : Result :=
  .observation (decodeFrame params.swLFirst w) (corruptedOf (decodeFrame params.swLFirst w))

/-- An observation (R72): it yields the frame and its verdict or, while `FB` is `undef`, that it is refused, and changes nothing of the block. The
refusal is an answer, after which a program goes on (95_test_vectors.md P3; R100 "not an event in the hardware"; log 12). -/
def State.observe (s : State) : State :=
  s.produce (s.outputOf .refused observationOf)

end Sys2Proof.Machine
end

