-- ==== Sys2Proof/Machine/Block.lean ====
section
/-! DEFINITION. The block-level operations `RST`, `LOAD` and `OBS` (42_block_operations.md R70 to R72), and a whole wire frame given to the block
(`FRAME`, 30_encoding.md R31). -/

namespace Sys2Proof.Machine

/-- `RST` (R70). -/
def execRst (s : State) : Answer := .next s.voidFb.produceNothing

/-- `LOAD b0 .. b17` (R71): every operand is accepted. -/
def execLoad (b : FrameBuffer) (s : State) : Answer := .next (s.loadFb b).produceNothing

/-- `OBS` (R72): it completes in every state. -/
def execObs (s : State) : Answer := .next s.observe

/-- `FRAME`: the wire frame `w` given to the block. `FB` takes its bytes and the outputs, which are functions of `FB`, are those of `w`: one
frame cycle, a `LOAD` and the observation of it (R31, R73; decision D17; log 9). -/
def execFrame (w : FrameBits) (s : State) : Answer :=
  .next ((s.loadFb (frameBytes w)).produce (observationOf w))

end Sys2Proof.Machine
end

