-- ==== Sys2Proof/Machine/Check.lean ====
section
/-! DEFINITION. The validator's operations: `CHK.*` and `VALID` (41_validator.md R60 to R66). -/

namespace Sys2Proof.Machine

/-- A check of the decoded frame: it produces one internal term (R19). -/
def readTerm (ok : Frame → Bool) (s : State) : Answer :=
  readFb (fun w => .term (ok (decodeFrame params.swLFirst w))) s

/-- `CHK.ch_r_x` (R60). -/
def execChkChRX (s : State) : Answer := readTerm okChRX s

/-- `CHK.ch_r_y` (R61). -/
def execChkChRY (s : State) : Answer := readTerm okChRY s

/-- `CHK.ch_l_x` (R62). -/
def execChkChLX (s : State) : Answer := readTerm okChLX s

/-- `CHK.ch_l_y` (R63). -/
def execChkChLY (s : State) : Answer := readTerm okChLY s

/-- `CHK.sw_l` (R64). -/
def execChkSwL (s : State) : Answer := readTerm okSwL s

/-- `CHK.sw_r` (R65). -/
def execChkSwR (s : State) : Answer := readTerm okSwR s

/-- `VALID` (R66). -/
def execValid (s : State) : Answer :=
  readFb (fun w => .verdict (corruptedOf (decodeFrame params.swLFirst w))) s

end Sys2Proof.Machine
end

