-- ==== Sys2Proof/Machine/Extract.lean ====
section
/-! DEFINITION. The frame decoder's operations: `EXT.*`, `MAP.sw`, `DECODE` and `ENCODE` (40_frame_decode.md R40 to R55). -/

namespace Sys2Proof.Machine

/-- `EXT.ch_r_x` (R40). -/
def execExtChRX (s : State) : Answer := readFb (fun w => .channel (sliceChRX w)) s

/-- `EXT.ch_r_y` (R41). -/
def execExtChRY (s : State) : Answer := readFb (fun w => .channel (sliceChRY w)) s

/-- `EXT.ch_l_x` (R42). -/
def execExtChLX (s : State) : Answer := readFb (fun w => .channel (sliceChLX w)) s

/-- `EXT.ch_l_y` (R43). -/
def execExtChLY (s : State) : Answer := readFb (fun w => .channel (sliceChLY w)) s

/-- `EXT.sw_a` (R44). -/
def execExtSwA (s : State) : Answer := readFb (fun w => .switch (sliceSwA w)) s

/-- `EXT.sw_b` (R45). -/
def execExtSwB (s : State) : Answer := readFb (fun w => .switch (sliceSwB w)) s

/-- `EXT.x` (R47). -/
def execExtX (s : State) : Answer := readFb (fun w => .delta (s16 (sliceX w))) s

/-- `EXT.y` (R48). -/
def execExtY (s : State) : Answer := readFb (fun w => .delta (s16 (sliceY w))) s

/-- `EXT.z` (R49). -/
def execExtZ (s : State) : Answer := readFb (fun w => .delta (s16 (sliceZ w))) s

/-- `EXT.press_l` (R50). -/
def execExtPressL (s : State) : Answer := readFb (fun w => .press (slicePressL w)) s

/-- `EXT.press_r` (R51). -/
def execExtPressR (s : State) : Answer := readFb (fun w => .press (slicePressR w)) s

/-- `EXT.key` (R52). -/
def execExtKey (s : State) : Answer := readFb (fun w => .mask (sliceKey w)) s

/-- `EXT.res` (R53). -/
def execExtRes (s : State) : Answer := readFb (fun w => .mask (sliceRes w)) s

/-- `MAP.sw` (R46). -/
def execMapSw (s : State) : Answer :=
  readFb (fun w =>
    .switches (mapSwitches params.swLFirst (sliceSwA w) (sliceSwB w)).1
      (mapSwitches params.swLFirst (sliceSwA w) (sliceSwB w)).2) s

/-- `DECODE` (R54). -/
def execDecode (s : State) : Answer := readFb (fun w => .frame (decodeFrame params.swLFirst w)) s

/-- `ENCODE` (R55): a test bench operation, which reads and writes nothing of the block; "not defined" on a record with a field out of range
(log 11). -/
def execEncode (f : Frame) (s : State) : Answer :=
  if f.inRange then .next (s.produce (.bits (encodeFrame params.swLFirst f))) else .refused .notAFrame

end Sys2Proof.Machine
end

