-- ==== Sys2Proof/Machine/Dispatch.lean ====
section
/-! DEFINITION. What each operation does: one arm for each row of the operation table. -/

namespace Sys2Proof.Machine

def exec (i : Instr) (s : State) : Host.Outcome State Fault Refusal :=
  match i with
  | .frame w => Sys2Proof.Machine.execFrame w s
  | .extChRX => Sys2Proof.Machine.execExtChRX s
  | .extChRY => Sys2Proof.Machine.execExtChRY s
  | .extChLX => Sys2Proof.Machine.execExtChLX s
  | .extChLY => Sys2Proof.Machine.execExtChLY s
  | .extSwA => Sys2Proof.Machine.execExtSwA s
  | .extSwB => Sys2Proof.Machine.execExtSwB s
  | .extX => Sys2Proof.Machine.execExtX s
  | .extY => Sys2Proof.Machine.execExtY s
  | .extZ => Sys2Proof.Machine.execExtZ s
  | .extPressL => Sys2Proof.Machine.execExtPressL s
  | .extPressR => Sys2Proof.Machine.execExtPressR s
  | .extKey => Sys2Proof.Machine.execExtKey s
  | .extRes => Sys2Proof.Machine.execExtRes s
  | .mapSw => Sys2Proof.Machine.execMapSw s
  | .decode => Sys2Proof.Machine.execDecode s
  | .encode f => Sys2Proof.Machine.execEncode f s
  | .chkChRX => Sys2Proof.Machine.execChkChRX s
  | .chkChRY => Sys2Proof.Machine.execChkChRY s
  | .chkChLX => Sys2Proof.Machine.execChkChLX s
  | .chkChLY => Sys2Proof.Machine.execChkChLY s
  | .chkSwL => Sys2Proof.Machine.execChkSwL s
  | .chkSwR => Sys2Proof.Machine.execChkSwR s
  | .valid => Sys2Proof.Machine.execValid s
  | .rst => Sys2Proof.Machine.execRst s
  | .load b => Sys2Proof.Machine.execLoad b s
  | .obs => Sys2Proof.Machine.execObs s

end Sys2Proof.Machine
end

