-- ==== Sys2Proof/Machine/Environment.lean ====
section
/-! DEFINITION. The documented environment (43_environment_contract.md): the acquisition loop, its transport and its publish sink, one step of
the loop at a time; and the fetch of a program's next transaction (30_encoding.md R37). -/

namespace Sys2Proof.Machine

/-- Construction (R90, R108; 70_reset_and_hazards.md R110, R111 items 1 and 2): with the transport absent, "initialization aborts"; else it is
configured once (R88) and the block has its `RST` (R70, R81). -/
def constructInstance (present : Bool) (s : State) : Answer :=
  if present then .next (((s.voidFb.produceNothing).configureLine params.line).goto .workerStart)
  else .fault .transportMissing

/-- `RESET_START` and `RESET_RECOVER` discard "any buffered/partial bytes held by the transport" (R80, R85); `FB` is left alone. -/
def State.flush (s : State) : State := s.setRx []

/-- `AWAIT_FRAME` (R81, R84): with 18 bytes received, `LOAD` the first 18 and go on to `VALIDATE`. Without them the worker stays blocked, unless
the transport has a timeout of its own and uses it now: then the bytes loaded are a draw (D16, log 14). -/
def awaitFrame (timeout : Bool) (d : EnvDraw) (s : State) : State :=
  match takeFrame s.transport.rx with
  | some (b, rest) => (((s.setRx rest).loadFb b).produceNothing).goto .validate
  | none =>
    if timeout && d.timesOut then (((s.setRx d.rxAfter).loadFb d.frame).produceNothing).goto .validate else s

/-- `VALIDATE` (R81): `OBS`, and the way the verdict sends the loop. Without a verdict neither row of the table applies, and the worker stays where it is;
no run of the loop comes there (log 27). -/
def validateStep (s : State) : State :=
  match s.corrupted with
  | some true => s.observe.goto .resetRecover
  | some false => s.observe.goto .publish
  | none => s.observe

/-- `PUBLISH` (R81, R87): the exact decoded frame is broadcast once. Without a frame there is nothing to broadcast; no run of the loop comes there
(log 27). -/
def publishStep (s : State) : State :=
  match s.frame with
  | some f => (s.broadcast f).goto .awaitFrame
  | none => s.goto .awaitFrame

/-- `BACKOFF` (R86): the worker stays blocked until the interval has elapsed; one scheduler time-unit a step (log 15). -/
def backoffStep (s : State) : State :=
  if s.backoffLeft = 0 then s.goto .awaitFrame else s.setBackoff (s.backoffLeft - 1)

/-- One step of the loop in state `st` (R81), with the environment's draw `d` for this step. From `WORKER_START` on, the transport first receives
what arrived (log 13). -/
def loopStep (st : LoopState) (d : EnvDraw) (s : State) : Answer :=
  match st with
  | .construct => constructInstance Config.transportPresent s
  | .workerStart => .next ((s.receive d).goto .resetStart)
  | .resetStart => .next ((s.receive d).flush.goto .awaitFrame)
  | .awaitFrame => .next (awaitFrame params.transportTimeout d (s.receive d))
  | .validate => .next (validateStep (s.receive d))
  | .publish => .next (publishStep (s.receive d))
  | .resetRecover => .next (((s.receive d).flush.setBackoff params.backoffUnits).goto .backoff)
  | .backoff => .next (backoffStep (s.receive d))

/-- The instruction of a transaction: an operation stands as it is, and raw bytes are decoded and must be exactly one wire frame (R30, U17). -/
def fetchTransaction : Transaction → Except Refusal Instr
  | .op i => .ok i
  | .wire bs =>
    match decode bs with
    | .ok (i, []) => .ok i
    | .ok (_, _ :: _) => .error .notAFrame
    | .error _ => .error .notAFrame

/-- The worker's program is now `ts`. -/
def State.setProgram (ts : List Transaction) (s : State) : State :=
  { s with worker := .program ts }

end Sys2Proof.Machine
end

