-- ==== Sys2Proof/Machine/Step.lean ====
section
/-! DEFINITION. One step of the machine: the worker performs the next transaction of its program, or one step of the acquisition loop
(42_block_operations.md R75). -/

namespace Sys2Proof.Machine

/-- One step. A program's transactions are performed in order, each by `exec`; with none left, nothing happens (R75: the block never acts
spontaneously; log 23). The acquisition loop steps with the environment's next draw. -/
def step (s : State) : Host.Outcome State Fault Refusal :=
  match s.worker with
  | .loop st => loopStep st (Config.draw s.draws) s
  | .program [] => .next s
  | .program (t :: rest) =>
    match fetchTransaction t with
    | .ok i => exec i (s.setProgram rest)
    | .error r => .refused r

/-- `s` with the wire frame of the table word as the worker's next transaction (log 8, log 10). -/
def State.withFetchWord (s : State) (nbits w : Nat) : State :=
  s.setProgram [.wire (tableWordBytes nbits w)]

end Sys2Proof.Machine
end

