-- ==== Sys2Proof/Machine/KeyCodes.lean ====
section
/-! DEFINITION. The logical key-code space and its modifier codes: consumer software outside the block, "derived, not wire data"
(43_environment_contract.md R91 to R93; conflict C1). -/

namespace Sys2Proof.Machine

/-- `N`: six switch positions, one code for each bit of `key`, four press and release edges (R91, decision D20). -/
def nKeycodes : Nat := params.nKeycodes

/-- `k` is one of the `N` consecutive base codes (R91, R92). -/
def isBaseCode (k : Int) : Prop :=
  Config.keyCodeBase ≤ k ∧ k < Config.keyCodeBase + nKeycodes

/-- `ShiftWith(k) = k + N` (R92). -/
def shiftWith (k : Int) : Int := k + nKeycodes

/-- `CtrlWith(k) = k + 2N` (R92). -/
def ctrlWith (k : Int) : Int := k + 2 * nKeycodes

/-- `ShiftCtrlWith(k) = k + 3N` (R92). -/
def shiftCtrlWith (k : Int) : Int := k + 3 * nKeycodes

end Sys2Proof.Machine
end

