-- ==== Sys2Proof/Safety.lean ====
section
/-! DEFINITION. The words the statements use: which operations read and write the frame buffer, runs of operations, the byte formulas'
ingredients (30_encoding.md R33), and the invariant that says what a good state is. -/

namespace Sys2Proof

open Machine

/-- The operation produces a value from `FB` (30_encoding.md R34, column "reads"). -/
def Instr.readsFb : Instr → Bool
  | .frame _ => false
  | .extChRX => true
  | .extChRY => true
  | .extChLX => true
  | .extChLY => true
  | .extSwA => true
  | .extSwB => true
  | .extX => true
  | .extY => true
  | .extZ => true
  | .extPressL => true
  | .extPressR => true
  | .extKey => true
  | .extRes => true
  | .mapSw => true
  | .decode => true
  | .encode _ => false
  | .chkChRX => true
  | .chkChRY => true
  | .chkChLX => true
  | .chkChLY => true
  | .chkSwL => true
  | .chkSwR => true
  | .valid => true
  | .rst => false
  | .load _ => false
  | .obs => true

/-- The operation is a field extraction, the switch mapping or the whole decode: its value is made of the bits it reads (R40 to R54). -/
def Instr.extracts : Instr → Bool
  | .frame _ => false
  | .extChRX => true
  | .extChRY => true
  | .extChLX => true
  | .extChLY => true
  | .extSwA => true
  | .extSwB => true
  | .extX => true
  | .extY => true
  | .extZ => true
  | .extPressL => true
  | .extPressR => true
  | .extKey => true
  | .extRes => true
  | .mapSw => true
  | .decode => true
  | .encode _ => false
  | .chkChRX => false
  | .chkChRY => false
  | .chkChLX => false
  | .chkChLY => false
  | .chkSwL => false
  | .chkSwR => false
  | .valid => false
  | .rst => false
  | .load _ => false
  | .obs => false

/-- What `FB` holds after the operation has completed, from what it held before: only `LOAD`, a whole wire frame, and `RST` write it (10_state.md
R10). -/
def Instr.fbAfter (i : Instr) (fb : Option FrameBuffer) : Option FrameBuffer :=
  match i with
  | .frame w => some (frameBytes w)
  | .extChRX => fb
  | .extChRY => fb
  | .extChLX => fb
  | .extChLY => fb
  | .extSwA => fb
  | .extSwB => fb
  | .extX => fb
  | .extY => fb
  | .extZ => fb
  | .extPressL => fb
  | .extPressR => fb
  | .extKey => fb
  | .extRes => fb
  | .mapSw => fb
  | .decode => fb
  | .encode _ => fb
  | .chkChRX => fb
  | .chkChRY => fb
  | .chkChLX => fb
  | .chkChLY => fb
  | .chkSwL => fb
  | .chkSwR => fb
  | .valid => fb
  | .rst => none
  | .load b => some b
  | .obs => fb

/-- What `FB` holds after a sequence of operations, from what it held before (R73). -/
def fbAfterAll : List Instr → Option FrameBuffer → Option FrameBuffer
  | [], fb => fb
  | i :: is, fb => fbAfterAll is (i.fbAfter fb)

/-- A sequence of operations performed in order, stopping at the first that has no next state (R26, R73). -/
def runOps : List Instr → State → Answer
  | [], s => .next s
  | i :: is, s =>
    match exec i s with
    | .next t => runOps is t
    | .fault r => .fault r
    | .refused r => .refused r

/-- `Bj = u(FB[j])` (R33). -/
def byteAt (b : FrameBuffer) (j : Fin 18) : Nat := b[j].toNat

/-- The signed value of an unsigned 16-bit value (00_scope.md R7). -/
def signed16 (u : Nat) : Int := if u < 32768 then u else u - 65536

/-- The two frame vectors agree on every bit of the range (R6). -/
def agreeOn (r : BitRange) (w w' : FrameBits) : Prop :=
  ∀ k, r.lo ≤ k → k ≤ r.hi → w.getLsbD k = w'.getLsbD k

/-- A value an operation can have produced: every frame and motion delta in the range of its width (10_state.md R12), every observation pairing a frame
with its own verdict (R72, R112). -/
def Machine.Result.sound : Result → Bool
  | .channel _ => true
  | .switch _ => true
  | .switches _ _ => true
  | .delta v => axisInRange v
  | .press _ => true
  | .mask _ => true
  | .frame f => f.inRange
  | .bits _ => true
  | .term _ => true
  | .verdict _ => true
  | .observation f c => f.inRange && (c == corruptedOf f)
  | .refused => true
  | .undef => true

/-- The states of a good machine: what the loop relies on (R81), what may be on the publish channel (R87), and what the timer and the
transport's configuration can be (R86, R88). -/
structure Machine.State.Inv (s : State) : Prop where
  /-- in `VALIDATE` a frame has been loaded -/
  loaded : s.worker = .loop .validate → s.fb.isSome = true
  /-- in `PUBLISH` the frame in `FB` has passed validation -/
  validated : s.worker = .loop .publish → s.corrupted = some false
  /-- only frames with `corrupted = 0` have been published, and each field is in range -/
  published : ∀ f, s.channel = some f → f.inRange = true ∧ corruptedOf f = false
  /-- the channel has delivered something exactly when there has been a publish event -/
  counted : s.channel = none ↔ s.publishes = 0
  /-- what the last operation produced is a value it can produce -/
  produced : ∀ r, s.result = some r → r.sound = true
  /-- the backoff is never longer than `BACKOFF_UNITS` -/
  bounded : s.backoffLeft ≤ params.backoffUnits
  /-- the transport's configuration is the documented one, if it has been set -/
  configured : ∀ c, s.transport.line = some c → c = params.line
  /-- the loop runs only on a configured transport -/
  constructed : ∀ st, s.worker = .loop st → st ≠ .construct → s.transport.line.isSome = true

end Sys2Proof
end

