-- ==== Sys2Proof/Certificates/Slice0/Obligations.lean ====
section
/-! DEFINITION. The statements about the machine, each a formal reading of numbered rules of spec/. -/

open Sys2Proof Sys2Proof.Machine

/-! ## Reset and the frame buffer -/

/-- R14: after reset, after `RST` and after construction `FB` holds no value; the outputs then have none and `OBS` answers that it is refused (R72);
this lasts until the first `LOAD` (or wire frame); and the all-zero buffer decodes to channels and switches of 0 and is rejected. That `FB` holds no
value rather than some value is the spec's own choice, decision D5 (log 1). That the refusal is an answer of `OBS`, after which the machine goes on, that the other operations that read `FB` produce an output that is `undef` and change
nothing else, and that a wire frame gives `FB` a value, are the model's reading (log 12, log 9). -/
def Obligations.ResetLeavesNoFrame : Prop :=
  State.reset.fb = none ∧
  (∀ s, ∃ t, exec .rst s = .next t ∧ t.fb = none) ∧
  (∀ s, ∃ t, constructInstance true s = .next t ∧ t.fb = none) ∧
  (∀ s : State, s.fb = none → s.frame = none ∧ s.corrupted = none ∧ exec .obs s = .next { s with result := some .refused } ∧
    ∀ i : Instr, i.readsFb = true → i ≠ .obs → exec i s = .next { s with result := some .undef }) ∧
  (∀ (i : Instr) (s t : State), s.fb = none → exec i s = .next t → t.fb ≠ none →
    (∃ b, i = .load b) ∨ ∃ w, i = .frame w) ∧
  (∀ o : Bool, let f := decodeFrame o (frameBits (Vector.replicate 18 0#8))
    f.chRX = 0 ∧ f.chRY = 0 ∧ f.chLX = 0 ∧ f.chLY = 0 ∧ f.swL = 0 ∧ f.swR = 0 ∧ corruptedOf f = true)

/-- R20: frame bit `8j+k` is bit `k` of byte `j`, and the value of the frame vector is the little-endian sum of its bytes. The bit order
is the spec's own choice, decision D2 (log 2). -/
def Obligations.FrameVectorIsLittleEndian : Prop :=
  ∀ b : FrameBuffer,
    (∀ (j : Fin 18) (k : Fin 8), (frameBits b).getLsbD (8 * j + k) = b[j].getLsbD k) ∧
    (frameBits b).toNat = ∑ j : Fin 18, b[j].toNat * 256 ^ (j : Nat)

/-- R33: each field by its byte formula, for either switch order; the slices and the formulas are the same function. The formulas are
derived by the spec from R31 and R20 (decision D2, log 2). -/
def Obligations.FieldsAreByteFormulas : Prop :=
  ∀ (o : Bool) (b : FrameBuffer), let w := frameBits b; let f := decodeFrame o w; let B := byteAt b
    f.chRX.toNat = (B 0 ||| (B 1 <<< 8)) &&& 0x7FF ∧
    f.chRY.toNat = ((B 1 >>> 3) ||| (B 2 <<< 5)) &&& 0x7FF ∧
    f.chLX.toNat = ((B 2 >>> 6) ||| (B 3 <<< 2) ||| (B 4 <<< 10)) &&& 0x7FF ∧
    f.chLY.toNat = ((B 4 >>> 1) ||| (B 5 <<< 7)) &&& 0x7FF ∧
    (sliceSwA w).toNat = (B 5 >>> 4) &&& 0x3 ∧
    (sliceSwB w).toNat = (B 5 >>> 6) &&& 0x3 ∧
    f.x = signed16 (B 6 ||| (B 7 <<< 8)) ∧
    f.y = signed16 (B 8 ||| (B 9 <<< 8)) ∧
    f.z = signed16 (B 10 ||| (B 11 <<< 8)) ∧
    f.pressL.toNat = B 12 ∧
    f.pressR.toNat = B 13 ∧
    f.key.toNat = B 14 ||| (B 15 <<< 8) ∧
    f.res.toNat = B 16 ||| (B 17 <<< 8)

/-! ## The frame decoder -/

/-- R40 to R43: with a frame in `FB` each channel extraction completes, produces the unsigned value of its slice, which is its byte formula,
and changes nothing else. -/
def Obligations.ChannelExtraction : Prop :=
  ∀ (s : State) (b : FrameBuffer), s.fb = some b → let w := frameBits b; let B := byteAt b
    (∃ v : BitVec 11, exec .extChRX s = .next { s with result := some (.channel v) } ∧
      v = w.extractLsb 10 0 ∧ v.toNat = (B 0 ||| (B 1 <<< 8)) &&& 0x7FF) ∧
    (∃ v : BitVec 11, exec .extChRY s = .next { s with result := some (.channel v) } ∧
      v = w.extractLsb 21 11 ∧ v.toNat = ((B 1 >>> 3) ||| (B 2 <<< 5)) &&& 0x7FF) ∧
    (∃ v : BitVec 11, exec .extChLX s = .next { s with result := some (.channel v) } ∧
      v = w.extractLsb 32 22 ∧ v.toNat = ((B 2 >>> 6) ||| (B 3 <<< 2) ||| (B 4 <<< 10)) &&& 0x7FF) ∧
    (∃ v : BitVec 11, exec .extChLY s = .next { s with result := some (.channel v) } ∧
      v = w.extractLsb 43 33 ∧ v.toNat = ((B 4 >>> 1) ||| (B 5 <<< 7)) &&& 0x7FF)

/-- R44, R45: the two positional switch pairs. -/
def Obligations.SwitchPairExtraction : Prop :=
  ∀ (s : State) (b : FrameBuffer), s.fb = some b → let w := frameBits b; let B := byteAt b
    (∃ v : BitVec 2, exec .extSwA s = .next { s with result := some (.switch v) } ∧
      v = w.extractLsb 45 44 ∧ v.toNat = (B 5 >>> 4) &&& 3) ∧
    (∃ v : BitVec 2, exec .extSwB s = .next { s with result := some (.switch v) } ∧
      v = w.extractLsb 47 46 ∧ v.toNat = (B 5 >>> 6) &&& 3)

/-- R46: `MAP.sw` gives the lower pair to `sw_l` when `SW_L_FIRST` is true and the upper pair when it is false, and the other pair to `sw_r`;
with equal pairs the parameter makes no difference; nor does it to any other field or to `corrupted`. `SW_L_FIRST` is OPEN
(decision D3, log 3): the statement holds for either value. -/
def Obligations.SwitchMapping : Prop :=
  (∀ (s : State) (b : FrameBuffer), s.fb = some b → ∃ l r : BitVec 2,
    exec .mapSw s = .next { s with result := some (.switches l r) } ∧
    if params.swLFirst then l = (frameBits b).extractLsb 45 44 ∧ r = (frameBits b).extractLsb 47 46
    else l = (frameBits b).extractLsb 47 46 ∧ r = (frameBits b).extractLsb 45 44) ∧
  (∀ v : BitVec 2, mapSwitches true v v = mapSwitches false v v) ∧
  (∀ w : FrameBits, let f := decodeFrame true w; let g := decodeFrame false w
    g = { f with swL := g.swL, swR := g.swR } ∧ g.swL = f.swR ∧ g.swR = f.swL ∧ corruptedOf g = corruptedOf f)

/-- R47 to R49: the motion deltas, the two's-complement value of two bytes, low byte first. Two's complement is the spec's
own choice, decision D4 (log 4). -/
def Obligations.MotionExtraction : Prop :=
  ∀ (s : State) (b : FrameBuffer), s.fb = some b → let w := frameBits b; let B := byteAt b
    (∃ v : Int, exec .extX s = .next { s with result := some (.delta v) } ∧
      v = signed16 (w.extractLsb 63 48).toNat ∧ v = signed16 (B 6 ||| (B 7 <<< 8))) ∧
    (∃ v : Int, exec .extY s = .next { s with result := some (.delta v) } ∧
      v = signed16 (w.extractLsb 79 64).toNat ∧ v = signed16 (B 8 ||| (B 9 <<< 8))) ∧
    (∃ v : Int, exec .extZ s = .next { s with result := some (.delta v) } ∧
      v = signed16 (w.extractLsb 95 80).toNat ∧ v = signed16 (B 10 ||| (B 11 <<< 8)))

/-- R50 to R53: the press flags, the key mask and the reserved field. -/
def Obligations.FlagKeyReservedExtraction : Prop :=
  ∀ (s : State) (b : FrameBuffer), s.fb = some b → let w := frameBits b; let B := byteAt b
    (∃ v : BitVec 8, exec .extPressL s = .next { s with result := some (.press v) } ∧
      v = w.extractLsb 103 96 ∧ v.toNat = B 12) ∧
    (∃ v : BitVec 8, exec .extPressR s = .next { s with result := some (.press v) } ∧
      v = w.extractLsb 111 104 ∧ v.toNat = B 13) ∧
    (∃ v : BitVec 16, exec .extKey s = .next { s with result := some (.mask v) } ∧
      v = w.extractLsb 127 112 ∧ v.toNat = B 14 ||| (B 15 <<< 8)) ∧
    (∃ v : BitVec 16, exec .extRes s = .next { s with result := some (.mask v) } ∧
      v = w.extractLsb 143 128 ∧ v.toNat = B 16 ||| (B 17 <<< 8))

/-- R58: key `i` is frame bit `112 + i`; keys 0 to 7 are the bits of byte 14 and keys 8 to 15 those of byte 15: the spec's own
derivation from R52 and R20 (decision D2, log 2). -/
def Obligations.KeyBitPositions : Prop :=
  ∀ (o : Bool) (b : FrameBuffer) (i : Nat), i < 16 →
    (decodeFrame o (frameBits b)).key.getLsbD i = (frameBits b).getLsbD (112 + i) ∧
    (decodeFrame o (frameBits b)).key.getLsbD i = (if i < 8 then b[14].getLsbD i else b[15].getLsbD (i - 8))

/-- R54: with a frame in `FB`, whatever its bytes, `DECODE` completes with the record of the thirteen slices, changes nothing else, and depends on
nothing but those bytes and `SW_L_FIRST`. -/
def Obligations.DecodeIsTotal : Prop :=
  (∀ (s : State) (b : FrameBuffer), s.fb = some b → ∃ f : Frame,
    exec .decode s = .next { s with result := some (.frame f) } ∧ f = decodeFrame params.swLFirst (frameBits b)) ∧
  (∀ (o : Bool) (w : FrameBits), let f := decodeFrame o w
    f.chRX = w.extractLsb 10 0 ∧ f.chRY = w.extractLsb 21 11 ∧ f.chLX = w.extractLsb 32 22 ∧ f.chLY = w.extractLsb 43 33 ∧
    (if o then f.swL = w.extractLsb 45 44 ∧ f.swR = w.extractLsb 47 46
      else f.swL = w.extractLsb 47 46 ∧ f.swR = w.extractLsb 45 44) ∧
    f.x = signed16 (w.extractLsb 63 48).toNat ∧ f.y = signed16 (w.extractLsb 79 64).toNat ∧
    f.z = signed16 (w.extractLsb 95 80).toNat ∧
    f.pressL = w.extractLsb 103 96 ∧ f.pressR = w.extractLsb 111 104 ∧
    f.key = w.extractLsb 127 112 ∧ f.res = w.extractLsb 143 128)

/-- R55: `ENCODE` of a frame in range completes with the vector that has each field at its place, whose bytes are its byte slices, and changes
nothing else. That `ENCODE` produces the vector and leaves `FB` and all else as it was is the model's reading (log 11). -/
def Obligations.EncodePacksEveryField : Prop :=
  ∀ (s : State) (f : Frame), f.inRange = true → ∃ w : FrameBits,
    exec (.encode f) s = .next { s with result := some (.bits w) } ∧
    w.extractLsb 10 0 = f.chRX ∧ w.extractLsb 21 11 = f.chRY ∧ w.extractLsb 32 22 = f.chLX ∧ w.extractLsb 43 33 = f.chLY ∧
    w.extractLsb 45 44 = (if params.swLFirst then f.swL else f.swR) ∧
    w.extractLsb 47 46 = (if params.swLFirst then f.swR else f.swL) ∧
    ((w.extractLsb 63 48).toNat : Int) = f.x % 65536 ∧ ((w.extractLsb 79 64).toNat : Int) = f.y % 65536 ∧
    ((w.extractLsb 95 80).toNat : Int) = f.z % 65536 ∧
    w.extractLsb 103 96 = f.pressL ∧ w.extractLsb 111 104 = f.pressR ∧
    w.extractLsb 127 112 = f.key ∧ w.extractLsb 143 128 = f.res ∧
    ∀ j : Fin 18, (frameBytes w)[j] = w.extractLsb' (8 * (j : Nat)) 8

/-- R56: `DECODE` and `ENCODE` are inverse to each other, between 18-byte buffers and frames in range, for either switch order. From fields to
bytes and back is the source's property; the other direction and the bijection are the spec's derivation. -/
def Obligations.FrameRoundTrip : Prop :=
  ∀ o : Bool,
    (∀ f : Frame, f.inRange = true → decodeFrame o (encodeFrame o f) = f) ∧
    (∀ w : FrameBits, encodeFrame o (decodeFrame o w) = w) ∧
    (∀ b : FrameBuffer, frameBytes (frameBits b) = b) ∧
    (∀ w : FrameBits, frameBits (frameBytes w) = w) ∧
    (∀ b b' : FrameBuffer, decodeFrame o (frameBits b) = decodeFrame o (frameBits b') → b = b') ∧
    (∀ f : Frame, f.inRange = true ↔ ∃ b : FrameBuffer, decodeFrame o (frameBits b) = f)

/-- R57: what an operation that reads a slice of `FB` (every row of the format `FRAME144` but `FRAME` and `ENCODE`) produces depends on the bits of its own slices and on no other bit; and for an extraction,
changing any bit of its slices changes the value. The spec derives this
from R40 to R53. -/
def Obligations.FieldIndependence : Prop :=
  ∀ (i : Instr) (s : State) (b b' : FrameBuffer), i.readsFb = true → (tableRow params.swLFirst i).format = .frame144 →
    ∃ r r' : Result,
      exec i { s with fb := some b } = .next { s with fb := some b, result := some r } ∧
      exec i { s with fb := some b' } = .next { s with fb := some b', result := some r' } ∧
      ((∀ p ∈ (tableRow params.swLFirst i).reads, agreeOn p (frameBits b) (frameBits b')) → r = r') ∧
      (i.extracts = true → (∃ p ∈ (tableRow params.swLFirst i).reads, ¬ agreeOn p (frameBits b) (frameBits b')) → r ≠ r')

/-! ## The wire frame as the instruction word -/

/-- R30: there is exactly one format, 18 bytes. The decoder reads back what the encoder writes, consumes 18 bytes and nothing else, and fails
exactly on fewer than 18 bytes. -/
def Obligations.WireFramesDecode : Prop :=
  (∀ (i : Instr) (bs rest : List Byte), i.wellFormed = true → encode i = some bs →
    bs.length = 18 ∧ decode (bs ++ rest) = .ok (i, rest)) ∧
  (∀ (i : Instr) (bs rest : List Byte), decode bs = .ok (i, rest) →
    ∃ front, encode i = some front ∧ bs = front ++ rest ∧ front.length = 18) ∧
  (∀ w : FrameBits, ∃ bs, encode (.frame w) = some bs) ∧
  (∀ bs : List Byte, (∃ e, decode bs = .error e) ↔ bs.length < 18)

/-- R20, R31, R32: words written out from the spec. The first is P6 and V7 of 95_test_vectors.md; the others have one bit set, in the places
R32's table gives `ch_r_x[10]`, `ch_l_x[10]` and `res[15]`. -/
def Obligations.WrittenWordsDecode : Prop :=
  decode [0x55, 0x55, 0x15, 0xFA, 0xB8, 0xEB, 0x00, 0x80, 0xFF, 0x7F, 0xFE, 0xFF, 0x01, 0x00, 0x01, 0x80, 0xEF, 0xBE] =
      .ok (.frame 0xBEEF80010001FFFE7FFF8000EBB8FA155555#144, []) ∧
  decode [0, 0x04, 0, 0, 0, 0, 0, 0, 0, 0, 0, 0, 0, 0, 0, 0, 0, 0] = .ok (.frame (1#144 <<< 10), []) ∧
  decode [0, 0, 0, 0, 0x01, 0, 0, 0, 0, 0, 0, 0, 0, 0, 0, 0, 0, 0] = .ok (.frame (1#144 <<< 32), []) ∧
  decode [0, 0, 0, 0, 0, 0, 0, 0, 0, 0, 0, 0, 0, 0, 0, 0, 0, 0x80] = .ok (.frame (1#144 <<< 143), [])

/-- R35: no frame is illegal. `LOAD` accepts any 18 bytes in every state; every operation that reads `FB` then completes; the reserved field is
extracted like any other; and the verdict does not depend on it. -/
def Obligations.NoFrameIsIllegal : Prop :=
  (∀ (b : FrameBuffer) (s : State), ∃ t : State, exec (.load b) s = .next t ∧ t.fb = some b ∧
    (∀ i : Instr, i.readsFb = true → ∃ u, exec i t = .next u) ∧
    (∃ u : State, exec .extRes t = .next u ∧ u.result = some (.mask ((frameBits b).extractLsb 143 128)))) ∧
  (∀ (f : Frame) (r : BitVec 16), corruptedOf { f with res := r } = corruptedOf f)

/-- One step of a worker's program is `exec` of its next transaction, on the state without that transaction: an operation as it stands, or the
instruction its bytes decode to when nothing is left over. Bytes that are not exactly 18 are refused, and an empty program steps to the same
state (the last two: the model's own, log 8 and log 23). -/
def Obligations.StepRunsTheNextTransaction : Prop :=
  (∀ (s : State) (bs : List Byte) (i : Instr) (ts : List Transaction),
    s.worker = .program (.wire bs :: ts) → decode bs = .ok (i, []) → step s = exec i { s with worker := .program ts }) ∧
  (∀ (s : State) (i : Instr) (ts : List Transaction),
    s.worker = .program (.op i :: ts) → step s = exec i { s with worker := .program ts }) ∧
  (∀ (s : State) (bs : List Byte) (ts : List Transaction),
    s.worker = .program (.wire bs :: ts) → bs.length ≠ 18 → step s = .refused .notAFrame) ∧
  (∀ s : State, s.worker = .program [] → step s = .next s)

/-! ## The validator -/

/-- R60 to R63: with a frame in `FB` each channel check completes with one term, true exactly when the channel's slice lies in the closed window
[364, 1684], and changes nothing else. -/
def Obligations.ChannelChecks : Prop :=
  ∀ (s : State) (b : FrameBuffer), s.fb = some b → let w := frameBits b
    (∃ ok : Bool, exec .chkChRX s = .next { s with result := some (.term ok) } ∧
      (ok = true ↔ 364 ≤ (w.extractLsb 10 0).toNat ∧ (w.extractLsb 10 0).toNat ≤ 1684)) ∧
    (∃ ok : Bool, exec .chkChRY s = .next { s with result := some (.term ok) } ∧
      (ok = true ↔ 364 ≤ (w.extractLsb 21 11).toNat ∧ (w.extractLsb 21 11).toNat ≤ 1684)) ∧
    (∃ ok : Bool, exec .chkChLX s = .next { s with result := some (.term ok) } ∧
      (ok = true ↔ 364 ≤ (w.extractLsb 32 22).toNat ∧ (w.extractLsb 32 22).toNat ≤ 1684)) ∧
    (∃ ok : Bool, exec .chkChLY s = .next { s with result := some (.term ok) } ∧
      (ok = true ↔ 364 ≤ (w.extractLsb 43 33).toNat ∧ (w.extractLsb 43 33).toNat ≤ 1684))

/-- R64, R65: each switch check completes with one term, true exactly when its switch, at the place `SW_L_FIRST` gives it, is not 0. -/
def Obligations.SwitchChecks : Prop :=
  ∀ (s : State) (b : FrameBuffer), s.fb = some b → let w := frameBits b
    (∃ ok : Bool, exec .chkSwL s = .next { s with result := some (.term ok) } ∧
      (ok = true ↔ (if params.swLFirst then w.extractLsb 45 44 else w.extractLsb 47 46) ≠ 0)) ∧
    (∃ ok : Bool, exec .chkSwR s = .next { s with result := some (.term ok) } ∧
      (ok = true ↔ (if params.swLFirst then w.extractLsb 47 46 else w.extractLsb 45 44) ≠ 0))

/-- R66: with a frame in `FB`, `VALID` completes with `corrupted`, which is 0 exactly when all six conditions hold, and changes nothing else. -/
def Obligations.VerdictIsTheConjunction : Prop :=
  ∀ (s : State) (b : FrameBuffer), s.fb = some b → let f := decodeFrame params.swLFirst (frameBits b)
    ∃ c : Bool, exec .valid s = .next { s with result := some (.verdict c) } ∧ s.corrupted = some c ∧
      (c = false ↔
        (364 ≤ f.chRX.toNat ∧ f.chRX.toNat ≤ 1684) ∧ (364 ≤ f.chRY.toNat ∧ f.chRY.toNat ≤ 1684) ∧
        (364 ≤ f.chLX.toNat ∧ f.chLX.toNat ≤ 1684) ∧ (364 ≤ f.chLY.toNat ∧ f.chLY.toNat ≤ 1684) ∧
        f.swL ≠ 0 ∧ f.swR ≠ 0)

/-- R69: `corrupted` in frame bits, the same for either value of `SW_L_FIRST`, and a function of the first six bytes alone: the spec's
derivation from R64 to R66 and R46. -/
def Obligations.VerdictInFrameBits : Prop :=
  (∀ (o : Bool) (w : FrameBits),
    corruptedOf (decodeFrame o w) = false ↔
      (364 ≤ (w.extractLsb 10 0).toNat ∧ (w.extractLsb 10 0).toNat ≤ 1684) ∧
      (364 ≤ (w.extractLsb 21 11).toNat ∧ (w.extractLsb 21 11).toNat ≤ 1684) ∧
      (364 ≤ (w.extractLsb 32 22).toNat ∧ (w.extractLsb 32 22).toNat ≤ 1684) ∧
      (364 ≤ (w.extractLsb 43 33).toNat ∧ (w.extractLsb 43 33).toNat ≤ 1684) ∧
      w.extractLsb 45 44 ≠ 0 ∧ w.extractLsb 47 46 ≠ 0) ∧
  (∀ w : FrameBits, corruptedOf (decodeFrame true w) = corruptedOf (decodeFrame false w)) ∧
  (∀ (o : Bool) (b b' : FrameBuffer), (∀ j : Fin 18, j < 6 → b[j] = b'[j]) →
    corruptedOf (decodeFrame o (frameBits b)) = corruptedOf (decodeFrame o (frameBits b')))

/-- R59: (a) a frame with all channels in the window and both switches non-zero is valid; (b) one field that violates its rule makes it invalid,
whatever the other twelve hold; together, `corrupted = 0` exactly when all six conditions hold. -/
def Obligations.ValidatorProperties : Prop :=
  ∀ f : Frame,
    ((364 ≤ f.chRX.toNat ∧ f.chRX.toNat ≤ 1684) → (364 ≤ f.chRY.toNat ∧ f.chRY.toNat ≤ 1684) →
      (364 ≤ f.chLX.toNat ∧ f.chLX.toNat ≤ 1684) → (364 ≤ f.chLY.toNat ∧ f.chLY.toNat ≤ 1684) →
      f.swL ≠ 0 → f.swR ≠ 0 → corruptedOf f = false) ∧
    (∀ v : BitVec 11, v.toNat < 364 ∨ 1684 < v.toNat →
      corruptedOf { f with chRX := v } = true ∧ corruptedOf { f with chRY := v } = true ∧
      corruptedOf { f with chLX := v } = true ∧ corruptedOf { f with chLY := v } = true) ∧
    corruptedOf { f with swL := 0 } = true ∧ corruptedOf { f with swR := 0 } = true

/-- R68, items a, e and f: the seven unchecked fields never influence the verdict; a rejected frame is loaded and decoded unaltered; the verdict on a
frame does not depend on the state before its `LOAD`. -/
def Obligations.ValidatorReadsNothingElse : Prop :=
  (∀ (f : Frame) (x y z : Int) (pl pr : BitVec 8) (k r : BitVec 16),
    corruptedOf { f with x := x, y := y, z := z, pressL := pl, pressR := pr, key := k, res := r } = corruptedOf f) ∧
  (∀ (s s' : State) (b : FrameBuffer), ∃ t t' : State,
    exec (.load b) s = .next t ∧ exec (.load b) s' = .next t' ∧
    t.frame = some (decodeFrame params.swLFirst (frameBits b)) ∧ t'.frame = t.frame ∧ t'.corrupted = t.corrupted)

/-! ## The block-level operations -/

/-- R70: `RST` completes in every state, leaves `FB` without a value and every output undefined, changes nothing else of the machine but `result`, and twice is
the same as once; `OBS` then gives refused, which is an answer and no stop of the machine in the model's reading (log 12). -/
def Obligations.RstVoidsTheBuffer : Prop :=
  ∀ s : State, ∃ t : State, exec .rst s = .next t ∧ t = { s with fb := none, result := none } ∧
    t.frame = none ∧ t.corrupted = none ∧ exec .rst t = .next t ∧
    exec .obs t = .next { t with result := some .refused }

/-- R71: `LOAD` completes in every state, for every 18 bytes, replaces all of `FB`, gives `corrupted` the value of the new bytes, and changes nothing else
of the machine but `result`. -/
def Obligations.LoadReplacesTheBuffer : Prop :=
  ∀ (s : State) (b : FrameBuffer), ∃ t : State,
    exec (.load b) s = .next t ∧ t = { s with fb := some b, result := none } ∧
    t.corrupted = some (corruptedOf (decodeFrame params.swLFirst (frameBits b))) ∧ exec (.load b) t = .next t

/-- R72: with a frame in `FB`, `OBS` completes with the decoded frame and the verdict on that same frame, changes nothing of the block and may be repeated;
while `FB` is `undef` it answers that it is refused, gives no value, and changes nothing of the block either. That the refusal is an answer, held in `result`, and no
stop of the machine is the model's reading of R37 and of the program P3 (log 12). -/
def Obligations.ObsPairsFrameAndVerdict : Prop :=
  (∀ (s : State) (b : FrameBuffer), s.fb = some b → ∃ (f : Frame) (c : Bool) (t : State),
    exec .obs s = .next t ∧ t = { s with result := some (.observation f c) } ∧
    f = decodeFrame params.swLFirst (frameBits b) ∧ c = corruptedOf f ∧ exec .obs t = .next t) ∧
  (∀ s : State, s.fb = none → exec .obs s = .next { s with result := some .refused })

/-- A whole wire frame given to the block (the row `FRAME`; the model's reading, log 9): it completes in every state, leaves in `FB` the bytes of the frame
vector (R20), and produces the observation that `LOAD` of those bytes and then `OBS` give. -/
def Obligations.WireFrameIsOneFrameCycle : Prop :=
  ∀ (s : State) (w : FrameBits), ∃ (b : FrameBuffer) (t : State),
    exec (.frame w) s = .next t ∧ frameBits b = w ∧
    t = { s with fb := some b, result := some (.observation (decodeFrame params.swLFirst w)
      (corruptedOf (decodeFrame params.swLFirst w))) } ∧
    runOps [.load b, .obs] s = .next t

/-- R26: every observation returns the decode and verdict of the most recent `LOAD` that precedes it, whatever operations were performed, and is refused if no `LOAD`
follows the last `RST`; and no later operation changes a frame the channel has delivered. A wire frame counts as a `LOAD` of its bytes, and a refused `OBS` is a step like any
other: the model's reading (log 9, log 12). -/
def Obligations.ObservationsFollowTheLastLoad : Prop :=
  ∀ (is : List Instr) (s t : State), runOps is s = .next t →
    t.fb = fbAfterAll is s.fb ∧ t.channel = s.channel ∧
    (∀ b, fbAfterAll is s.fb = some b → ∃ u : State, exec .obs t = .next u ∧
      u.result = some (.observation (decodeFrame params.swLFirst (frameBits b))
        (corruptedOf (decodeFrame params.swLFirst (frameBits b))))) ∧
    (fbAfterAll is s.fb = none → ∃ u : State, exec .obs t = .next u ∧ u.result = some .refused)

/-- The frame of every operation (R10, R24, R34): when `exec` answers a next state, `FB` is what the operation leaves in it (unchanged but for `RST`, `LOAD` and
a wire frame, which set it to no value and to their bytes), `result` may have changed, and every other part of the machine is unchanged. R10 names only `LOAD` and `RST` as
writers: that a wire frame writes `FB` (log 9) and that `ENCODE` leaves it alone (log 11) are the model's reading. -/
def Obligations.OperationFrame : Prop :=
  (∀ (i : Instr) (s t : State), exec i s = .next t →
    t = { s with fb := i.fbAfter s.fb, result := t.result }) ∧
  (∀ (i : Instr) (fb : Option FrameBuffer), (∀ w, i ≠ .frame w) → (∀ b, i ≠ .load b) → i ≠ .rst → i.fbAfter fb = fb) ∧
  (∀ (w : FrameBits) (b : FrameBuffer) (fb : Option FrameBuffer),
    Instr.fbAfter (.frame w) fb = some (frameBytes w) ∧ Instr.fbAfter (.load b) fb = some b ∧ Instr.fbAfter .rst fb = none)

/-- R100: no operation raises anything, and every operation completes, in any state. The one exception is the test bench's `ENCODE` of a record with a field out of range,
on which it is not defined (the model's reading, log 11). An operation answers refused exactly when it is `OBS` before the first `LOAD`, that is, while `FB` is `undef`
(an answer, after which the machine goes on: log 12). -/
def Obligations.OperationsRaiseNothing : Prop :=
  (∀ (i : Instr) (s : State) (r : Fault), exec i s ≠ .fault r) ∧
  (∀ (i : Instr) (s : State), i.wellFormed = true → ∃ t : State, exec i s = .next t ∧
    (t.result = some .refused ↔ i = .obs ∧ s.fb = none)) ∧
  (∀ (i : Instr) (s : State) (r : Refusal), exec i s = .refused r ↔ i.wellFormed = false ∧ r = .notAFrame)

/-- R115: corruption confined to bytes 6 to 17 is never detected, and the worked case: the misaligned window of two frames is accepted, with a phantom
button value and a phantom key. -/
def Obligations.FalseAcceptance : Prop :=
  (∀ (o : Bool) (b : FrameBuffer) (j : Fin 18) (v : Byte), 6 ≤ j →
    corruptedOf (decodeFrame o (frameBits (b.set j v))) = corruptedOf (decodeFrame o (frameBits b))) ∧
  (∀ o : Bool, let f := decodeFrame o (frameBits
      #v[0x00, 0x04, 0x20, 0x00, 0x01, 0xF8, 0x00, 0x00, 0x00, 0x00, 0x00, 0x00, 0x00, 0x04, 0x20, 0x00, 0x01, 0xF8])
    corruptedOf f = false ∧
    f = { chRX := 1024, chRY := 1024, chLX := 1024, chLY := 1024, swL := 3, swR := 3, x := 0, y := 0, z := 0,
          pressL := 0, pressR := 4, key := 0x0020, res := 0xF801 })

/-! ## The acquisition loop -/

/-- R90: with the transport absent construction aborts; with it present the worker starts, the transport is configured (R88) and the block has had
its `RST` (R81); and no other step of the system is a fault. Which of the two is the case is not fixed (log 16). -/
def Obligations.ConstructionNeedsTheTransport : Prop :=
  (∀ s : State, s.worker = .loop .construct → step s =
    if Config.transportPresent then
      .next { s with fb := none, result := none, worker := .loop .workerStart,
                     transport := { s.transport with line := some { baud := 100000, parity := .even, dataBits := 8, stopBits := 1 } } }
    else .fault .transportMissing) ∧
  (∀ (s : State) (r : Fault), s.worker ≠ .loop .construct → step s ≠ .fault r)

/-- R81: the transition table, row by row from the start of the worker on. Each row gives the whole next state, so whatever a row does not name is
unchanged: `FB`, the received bytes, the line, the timer, what the channel delivered and the publish count among them. `d` is what the environment does in this
step, whose bytes are received first. One row is one step of the loop (log 13, log 15), the count of publish events is the model's (log 18), the value produced is
held in `result` (log 7), and the two states for `RESET` are the spec's own, decision D15. What `VALIDATE` and `PUBLISH` do without a frame, in states no run comes to, is
the model's choice (log 27). -/
def Obligations.LoopTransitions : Prop :=
  ∀ s : State, let d := Config.draw s.draws; let rx := s.transport.rx ++ d.arrived
    (s.worker = .loop .workerStart → step s = .next
      { s with worker := .loop .resetStart, transport := { s.transport with rx := rx }, draws := s.draws + 1 }) ∧
    (s.worker = .loop .resetStart → step s = .next
      { s with worker := .loop .awaitFrame, transport := { s.transport with rx := [] }, draws := s.draws + 1 }) ∧
    (s.worker = .loop .awaitFrame → 18 ≤ rx.length → ∃ b : FrameBuffer, b.toList = rx.take 18 ∧ step s = .next
      { s with fb := some b, result := none, worker := .loop .validate, transport := { s.transport with rx := rx.drop 18 },
               draws := s.draws + 1 }) ∧
    (s.worker = .loop .validate → s.corrupted = some false → ∃ f, s.frame = some f ∧ step s = .next
      { s with result := some (.observation f false), worker := .loop .publish, transport := { s.transport with rx := rx },
               draws := s.draws + 1 }) ∧
    (s.worker = .loop .validate → s.corrupted = some true → ∃ f, s.frame = some f ∧ step s = .next
      { s with result := some (.observation f true), worker := .loop .resetRecover, transport := { s.transport with rx := rx },
               draws := s.draws + 1 }) ∧
    (s.worker = .loop .validate → s.fb = none → step s = .next
      { s with result := some .refused, transport := { s.transport with rx := rx }, draws := s.draws + 1 }) ∧
    (s.worker = .loop .publish → s.fb = none → step s = .next
      { s with worker := .loop .awaitFrame, transport := { s.transport with rx := rx }, draws := s.draws + 1 }) ∧
    (∀ f, s.worker = .loop .publish → s.frame = some f → step s = .next
      { s with channel := some f, publishes := s.publishes + 1, worker := .loop .awaitFrame,
               transport := { s.transport with rx := rx }, draws := s.draws + 1 }) ∧
    (s.worker = .loop .resetRecover → step s = .next
      { s with backoffLeft := params.backoffUnits, worker := .loop .backoff, transport := { s.transport with rx := [] },
               draws := s.draws + 1 }) ∧
    (s.worker = .loop .backoff → s.backoffLeft = 0 → step s = .next
      { s with worker := .loop .awaitFrame, transport := { s.transport with rx := rx }, draws := s.draws + 1 }) ∧
    (s.worker = .loop .backoff → s.backoffLeft ≠ 0 → step s = .next
      { s with backoffLeft := s.backoffLeft - 1, transport := { s.transport with rx := rx }, draws := s.draws + 1 })

/-- R84: a step in `AWAIT_FRAME` first receives what arrived. Then, with fewer than 18 bytes received, the worker stays blocked and nothing changes, unless
the transport has a timeout of its own and uses it: after such an early return the bytes loaded are a draw (decision D16; log 13, log 14). -/
def Obligations.StalledLinkBlocks : Prop :=
  (∀ s : State, s.worker = .loop .awaitFrame → let d := Config.draw s.draws
    step s = .next (awaitFrame params.transportTimeout d
      { s with transport := { s.transport with rx := s.transport.rx ++ d.arrived }, draws := s.draws + 1 })) ∧
  (∀ (timeout : Bool) (d : EnvDraw) (s : State), s.transport.rx.length < 18 →
    if timeout = true ∧ d.timesOut = true then
      awaitFrame timeout d s = { s with fb := some d.frame, result := none, worker := .loop .validate,
                                        transport := { s.transport with rx := d.rxAfter } }
    else awaitFrame timeout d s = s)

/-- R73: from `AWAIT_FRAME` with a frame received, three steps of the system are one frame cycle: exactly one publish, of exactly that frame, when
`corrupted = 0`; and no publish, the transport flushed and the loop in `BACKOFF`, when `corrupted = 1`. That a frame cycle is three steps is
the model's choice (log 13); at most one publish a `LOAD` is decision D21. -/
def Obligations.FrameCyclePublishesOnce : Prop :=
  ∀ (s : State) (b : FrameBuffer) (rest : List Byte),
    s.worker = .loop .awaitFrame → s.transport.rx = b.toList ++ rest → ∃ t : State,
      Host.Core.run Sys2Proof.core 3 s = .next t ∧ t.fb = some b ∧
      (let f := decodeFrame params.swLFirst (frameBits b)
       if corruptedOf f then
         t.worker = .loop .backoff ∧ t.channel = s.channel ∧ t.publishes = s.publishes ∧ t.transport.rx = []
       else
         t.worker = .loop .awaitFrame ∧ t.channel = some f ∧ t.publishes = s.publishes + 1)

/-- R86: in `BACKOFF` with `n` time-units left, `n` steps later the interval has elapsed and one more step is back in `AWAIT_FRAME`; nothing is published, `FB` is kept,
and the bytes that arrived in those `n + 1` steps are all in the transport, in the order they came, after those already there. One time-unit a step is the
model's choice (log 15), and so is that what arrives in a step is a free value, of which none is lost (log 13). -/
def Obligations.BackoffReturnsToAwaitFrame : Prop :=
  ∀ (n : Nat) (s : State), s.worker = .loop .backoff → s.backoffLeft = n → ∃ t : State,
    Host.Core.run Sys2Proof.core (n + 1) s = .next t ∧ t.worker = .loop .awaitFrame ∧ t.backoffLeft = 0 ∧ t.fb = s.fb ∧
    t.channel = s.channel ∧ t.publishes = s.publishes ∧ t.draws = s.draws + (n + 1) ∧
    t.transport.rx = s.transport.rx ++ (List.range (n + 1)).flatMap fun k => (Config.draw (s.draws + k)).arrived

/-- R87: the channel delivers only at `PUBLISH`, once, the exact decoded frame; no other step of the system changes what it last delivered
(log 18), nor does `PUBLISH` in the states, which no run comes to, in which there is no frame (log 27). -/
def Obligations.OnlyPublishReachesTheChannel : Prop :=
  ∀ s t : State, step s = .next t →
    (∀ f, s.worker = .loop .publish → s.frame = some f → t.channel = some f ∧ t.publishes = s.publishes + 1) ∧
    (s.worker ≠ .loop .publish ∨ s.fb = none → t.channel = s.channel ∧ t.publishes = s.publishes)

/-- R10, R85: what any step of the system may do to `FB`. It keeps it, or it is construction's `RST`; or the `LOAD` of `AWAIT_FRAME`, of the first 18 bytes received or,
after an early return of the transport, of a draw (decision D16; log 13, log 14); or the program's `RST`, `LOAD` or wire frame. `RESET` leaves it alone. R10 names only `LOAD` and
`RST`: that a wire frame writes `FB` with its bytes is the model's reading (log 9). -/
def Obligations.OnlyLoadAndRstWriteTheBuffer : Prop :=
  ∀ s t : State, step s = .next t → t.fb ≠ s.fb →
    (t.fb = none ∧ s.worker = .loop .construct) ∨
    (s.worker = .loop .awaitFrame ∧ t.worker = .loop .validate ∧
      let d := Config.draw s.draws; let rx := s.transport.rx ++ d.arrived
      if 18 ≤ rx.length then ∃ b : FrameBuffer, t.fb = some b ∧ b.toList = rx.take 18
      else t.fb = some d.frame ∧ params.transportTimeout = true ∧ d.timesOut = true) ∨
    (∃ (x : Transaction) (ts : List Transaction) (i : Instr), s.worker = .program (x :: ts) ∧ fetchTransaction x = .ok i ∧
      ((i = .rst ∧ t.fb = none) ∨ (∃ b, i = .load b ∧ t.fb = some b) ∨ (∃ w, i = .frame w ∧ t.fb = some (frameBytes w))))

/-! ## Invariants -/

/-- Every step keeps the invariant, from every state that meets it: what the loop relies on (R81), what is on the channel (R87), the timer (R86), and the
transport's configuration, set once at construction and never changed (R88, R90, R111). Its clause on `result` is about the model's own field (log 7), and its
clause on the publish count about the model's count (log 18). -/
def Obligations.StepKeepsTheInvariant : Prop :=
  ∀ s t : State, s.Inv → step s = .next t → t.Inv

/-- The state after reset meets the invariant; the reset values of the environment and of the model's own fields are the model's choice (log 17), as are
the clauses on `result` and the publish count (log 7, log 18). -/
def Obligations.ResetMeetsTheInvariant : Prop :=
  State.reset.Inv

/-- R82: the loop has no terminal state: from every good state in which the worker is past construction, any number of steps is possible, and the worker is still in
the loop. A blocked `AWAIT_FRAME` is a step that changes nothing but what has been received (log 13). -/
def Obligations.LoopHasNoTerminalState : Prop :=
  ∀ (n : Nat) (s : State) (st : LoopState), s.Inv → s.worker = .loop st → st ≠ .construct →
    ∃ (t : State) (st' : LoopState), Host.Core.run Sys2Proof.core n s = .next t ∧ t.Inv ∧ t.worker = .loop st' ∧ st' ≠ .construct

/-! ## Key codes -/

/-- R92: the modifier codes, and that base codes and the three modifier ranges are collision-free. `N = 26` is the spec's
derivation, decision D20, and the base is OPEN (log 21). -/
def Obligations.ModifierCodesAreDisjoint : Prop :=
  (∀ k : Int, shiftWith k = k + 26 ∧ ctrlWith k = k + 2 * 26 ∧ shiftCtrlWith k = k + 3 * 26) ∧
  (∀ k k' : Int, isBaseCode k → isBaseCode k' →
    (shiftWith k = shiftWith k' → k = k') ∧ (ctrlWith k = ctrlWith k' → k = k') ∧ (shiftCtrlWith k = shiftCtrlWith k' → k = k') ∧
    k ≠ shiftWith k' ∧ k ≠ ctrlWith k' ∧ k ≠ shiftCtrlWith k' ∧
    shiftWith k ≠ ctrlWith k' ∧ shiftWith k ≠ shiftCtrlWith k' ∧ ctrlWith k ≠ shiftCtrlWith k')

/-- R93: linearity, as corrected by conflict C1. -/
def Obligations.ModifierCodesAreLinear : Prop :=
  ∀ k : Int, shiftWith k - ctrlWith k = -(nKeycodes : Int) ∧
    shiftCtrlWith k - shiftWith k = 2 * (nKeycodes : Int) ∧
    shiftCtrlWith k - ctrlWith k = nKeycodes ∧ ctrlWith k - shiftWith k = nKeycodes
end

