-- ==== Sys2Proof/Laws/Encoding.lean ====
section
/-! SUPPORT. The bits of a frame vector made from bytes, and the range of a signed value. -/

namespace Sys2Proof

/-- Bit `i` of a little-endian byte list is bit `i % 8` of its byte `i / 8`. -/
theorem littleEndian_testBit (bs : List Byte) (i : Nat) :
    (littleEndian bs).testBit i = (bs[i / 8]?.getD 0#8).getLsbD (i % 8) := by
  induction bs generalizing i with
  | nil => simp [littleEndian]
  | cons b bs ih =>
    have hb : b.toNat < 2 ^ 8 := b.isLt
    have : littleEndian (b :: bs) = 2 ^ 8 * littleEndian bs + b.toNat := by simp [littleEndian]; omega
    rw [this, Nat.testBit_two_pow_mul_add _ hb]
    by_cases h : i < 8
    · have h0 : i / 8 = 0 := by omega
      simp [h, h0, Nat.mod_eq_of_lt h, BitVec.getLsbD]
    · obtain ⟨k, rfl⟩ : ∃ k, i = k + 8 := ⟨i - 8, by omega⟩
      simp [ih, Nat.add_div_right]

theorem littleEndian_lt (bs : List Byte) : littleEndian bs < 256 ^ bs.length := by
  induction bs with
  | nil => simp [littleEndian]
  | cons b bs ih =>
    have hb : b.toNat < 256 := b.isLt
    simp only [littleEndian, List.length_cons, Nat.pow_succ]
    omega

/-- The value of the frame vector is the little-endian value of its bytes: none of it is cut off. -/
theorem frameBits_toNat (b : FrameBuffer) : (frameBits b).toNat = littleEndian b.toList := by
  have h := littleEndian_lt b.toList
  simp only [Vector.length_toList] at h
  simp only [frameBits, BitVec.toNat_ofNat]
  exact Nat.mod_eq_of_lt (by simpa using h)

/-- Bit `i` of the frame vector is bit `i % 8` of byte `i / 8`. -/
theorem frameBits_getLsbD (b : FrameBuffer) (i : Nat) (h : i < 144) :
    (frameBits b).getLsbD i = (b[i / 8]'(by omega)).getLsbD (i % 8) := by
  rw [frameBits, BitVec.getLsbD_ofNat, littleEndian_testBit, List.getElem?_eq_getElem (by simp; omega)]
  simp [h]

/-- A disjunction of a number below `2^k` with one shifted by `k` is their sum. -/
theorem or_shiftLeft_eq_add {a k : Nat} (h : a < 2 ^ k) (b : Nat) : a ||| (b <<< k) = a + b * 2 ^ k := by
  rw [Nat.or_comm, ← Nat.shiftLeft_add_eq_or_of_lt h, Nat.shiftLeft_eq, Nat.add_comm]

namespace Machine

/-- A signed 16-bit value is in the range of its width (00_scope.md R7). -/
theorem s16_inRange (v : BitVec 16) : axisInRange (s16 v) = true := by
  have := v.isLt
  unfold axisInRange s16
  split <;> rename_i h <;> simp [BitVec.msb_eq_decide] at h ⊢ <;> omega

/-- Every decoded frame is in range (10_state.md R12). -/
theorem decodeFrame_inRange (swLFirst : Bool) (w : FrameBits) : (decodeFrame swLFirst w).inRange = true := by
  simp [Frame.inRange, decodeFrame, s16_inRange]

end Machine

end Sys2Proof
end

