-- ==== Sys2Proof/Laws/State.lean ====
section
/-! SUPPORT. What each named update of the state does to each field: one lemma a field and an update, so that no proof unfolds a record. -/

namespace Sys2Proof.Machine

@[simp] theorem State.loadFb_fb (s : State) (b : FrameBuffer) : (s.loadFb b).fb = some b := rfl
@[simp] theorem State.loadFb_result (s : State) (b : FrameBuffer) : (s.loadFb b).result = s.result := rfl
@[simp] theorem State.loadFb_worker (s : State) (b : FrameBuffer) : (s.loadFb b).worker = s.worker := rfl
@[simp] theorem State.loadFb_rx (s : State) (b : FrameBuffer) : (s.loadFb b).transport.rx = s.transport.rx := rfl
@[simp] theorem State.loadFb_line (s : State) (b : FrameBuffer) : (s.loadFb b).transport.line = s.transport.line := rfl
@[simp] theorem State.loadFb_backoffLeft (s : State) (b : FrameBuffer) : (s.loadFb b).backoffLeft = s.backoffLeft := rfl
@[simp] theorem State.loadFb_channel (s : State) (b : FrameBuffer) : (s.loadFb b).channel = s.channel := rfl
@[simp] theorem State.loadFb_publishes (s : State) (b : FrameBuffer) : (s.loadFb b).publishes = s.publishes := rfl
@[simp] theorem State.loadFb_draws (s : State) (b : FrameBuffer) : (s.loadFb b).draws = s.draws := rfl
@[simp] theorem State.loadFb_transport (s : State) (b : FrameBuffer) : (s.loadFb b).transport = s.transport := rfl

@[simp] theorem State.voidFb_fb (s : State) : s.voidFb.fb = none := rfl
@[simp] theorem State.voidFb_result (s : State) : s.voidFb.result = s.result := rfl
@[simp] theorem State.voidFb_worker (s : State) : s.voidFb.worker = s.worker := rfl
@[simp] theorem State.voidFb_rx (s : State) : s.voidFb.transport.rx = s.transport.rx := rfl
@[simp] theorem State.voidFb_line (s : State) : s.voidFb.transport.line = s.transport.line := rfl
@[simp] theorem State.voidFb_backoffLeft (s : State) : s.voidFb.backoffLeft = s.backoffLeft := rfl
@[simp] theorem State.voidFb_channel (s : State) : s.voidFb.channel = s.channel := rfl
@[simp] theorem State.voidFb_publishes (s : State) : s.voidFb.publishes = s.publishes := rfl
@[simp] theorem State.voidFb_draws (s : State) : s.voidFb.draws = s.draws := rfl
@[simp] theorem State.voidFb_transport (s : State) : s.voidFb.transport = s.transport := rfl

@[simp] theorem State.produce_fb (s : State) (r : Result) : (s.produce r).fb = s.fb := rfl
@[simp] theorem State.produce_result (s : State) (r : Result) : (s.produce r).result = some r := rfl
@[simp] theorem State.produce_worker (s : State) (r : Result) : (s.produce r).worker = s.worker := rfl
@[simp] theorem State.produce_rx (s : State) (r : Result) : (s.produce r).transport.rx = s.transport.rx := rfl
@[simp] theorem State.produce_line (s : State) (r : Result) : (s.produce r).transport.line = s.transport.line := rfl
@[simp] theorem State.produce_backoffLeft (s : State) (r : Result) : (s.produce r).backoffLeft = s.backoffLeft := rfl
@[simp] theorem State.produce_channel (s : State) (r : Result) : (s.produce r).channel = s.channel := rfl
@[simp] theorem State.produce_publishes (s : State) (r : Result) : (s.produce r).publishes = s.publishes := rfl
@[simp] theorem State.produce_draws (s : State) (r : Result) : (s.produce r).draws = s.draws := rfl
@[simp] theorem State.produce_transport (s : State) (r : Result) : (s.produce r).transport = s.transport := rfl

@[simp] theorem State.produceNothing_fb (s : State) : s.produceNothing.fb = s.fb := rfl
@[simp] theorem State.produceNothing_result (s : State) : s.produceNothing.result = none := rfl
@[simp] theorem State.produceNothing_worker (s : State) : s.produceNothing.worker = s.worker := rfl
@[simp] theorem State.produceNothing_rx (s : State) : s.produceNothing.transport.rx = s.transport.rx := rfl
@[simp] theorem State.produceNothing_line (s : State) : s.produceNothing.transport.line = s.transport.line := rfl
@[simp] theorem State.produceNothing_backoffLeft (s : State) : s.produceNothing.backoffLeft = s.backoffLeft := rfl
@[simp] theorem State.produceNothing_channel (s : State) : s.produceNothing.channel = s.channel := rfl
@[simp] theorem State.produceNothing_publishes (s : State) : s.produceNothing.publishes = s.publishes := rfl
@[simp] theorem State.produceNothing_draws (s : State) : s.produceNothing.draws = s.draws := rfl
@[simp] theorem State.produceNothing_transport (s : State) : s.produceNothing.transport = s.transport := rfl

@[simp] theorem State.observe_result (s : State) : s.observe.result = some (s.outputOf .refused observationOf) := rfl
@[simp] theorem State.observe_fb (s : State) : s.observe.fb = s.fb := rfl
@[simp] theorem State.observe_worker (s : State) : s.observe.worker = s.worker := rfl
@[simp] theorem State.observe_transport (s : State) : s.observe.transport = s.transport := rfl
@[simp] theorem State.observe_rx (s : State) : s.observe.transport.rx = s.transport.rx := rfl
@[simp] theorem State.observe_line (s : State) : s.observe.transport.line = s.transport.line := rfl
@[simp] theorem State.observe_backoffLeft (s : State) : s.observe.backoffLeft = s.backoffLeft := rfl
@[simp] theorem State.observe_channel (s : State) : s.observe.channel = s.channel := rfl
@[simp] theorem State.observe_publishes (s : State) : s.observe.publishes = s.publishes := rfl
@[simp] theorem State.observe_draws (s : State) : s.observe.draws = s.draws := rfl

@[simp] theorem State.goto_fb (s : State) (st : LoopState) : (s.goto st).fb = s.fb := rfl
@[simp] theorem State.goto_result (s : State) (st : LoopState) : (s.goto st).result = s.result := rfl
@[simp] theorem State.goto_worker (s : State) (st : LoopState) : (s.goto st).worker = .loop st := rfl
@[simp] theorem State.goto_rx (s : State) (st : LoopState) : (s.goto st).transport.rx = s.transport.rx := rfl
@[simp] theorem State.goto_line (s : State) (st : LoopState) : (s.goto st).transport.line = s.transport.line := rfl
@[simp] theorem State.goto_backoffLeft (s : State) (st : LoopState) : (s.goto st).backoffLeft = s.backoffLeft := rfl
@[simp] theorem State.goto_channel (s : State) (st : LoopState) : (s.goto st).channel = s.channel := rfl
@[simp] theorem State.goto_publishes (s : State) (st : LoopState) : (s.goto st).publishes = s.publishes := rfl
@[simp] theorem State.goto_draws (s : State) (st : LoopState) : (s.goto st).draws = s.draws := rfl
@[simp] theorem State.goto_transport (s : State) (st : LoopState) : (s.goto st).transport = s.transport := rfl

@[simp] theorem State.setRx_fb (s : State) (bs : List Byte) : (s.setRx bs).fb = s.fb := rfl
@[simp] theorem State.setRx_result (s : State) (bs : List Byte) : (s.setRx bs).result = s.result := rfl
@[simp] theorem State.setRx_worker (s : State) (bs : List Byte) : (s.setRx bs).worker = s.worker := rfl
@[simp] theorem State.setRx_rx (s : State) (bs : List Byte) : (s.setRx bs).transport.rx = bs := rfl
@[simp] theorem State.setRx_line (s : State) (bs : List Byte) : (s.setRx bs).transport.line = s.transport.line := rfl
@[simp] theorem State.setRx_backoffLeft (s : State) (bs : List Byte) : (s.setRx bs).backoffLeft = s.backoffLeft := rfl
@[simp] theorem State.setRx_channel (s : State) (bs : List Byte) : (s.setRx bs).channel = s.channel := rfl
@[simp] theorem State.setRx_publishes (s : State) (bs : List Byte) : (s.setRx bs).publishes = s.publishes := rfl
@[simp] theorem State.setRx_draws (s : State) (bs : List Byte) : (s.setRx bs).draws = s.draws := rfl

@[simp] theorem State.configureLine_fb (s : State) (c : LineConfig) : (s.configureLine c).fb = s.fb := rfl
@[simp] theorem State.configureLine_result (s : State) (c : LineConfig) : (s.configureLine c).result = s.result := rfl
@[simp] theorem State.configureLine_worker (s : State) (c : LineConfig) : (s.configureLine c).worker = s.worker := rfl
@[simp] theorem State.configureLine_rx (s : State) (c : LineConfig) : (s.configureLine c).transport.rx = s.transport.rx := rfl
@[simp] theorem State.configureLine_line (s : State) (c : LineConfig) : (s.configureLine c).transport.line = some c := rfl
@[simp] theorem State.configureLine_backoffLeft (s : State) (c : LineConfig) : (s.configureLine c).backoffLeft = s.backoffLeft := rfl
@[simp] theorem State.configureLine_channel (s : State) (c : LineConfig) : (s.configureLine c).channel = s.channel := rfl
@[simp] theorem State.configureLine_publishes (s : State) (c : LineConfig) : (s.configureLine c).publishes = s.publishes := rfl
@[simp] theorem State.configureLine_draws (s : State) (c : LineConfig) : (s.configureLine c).draws = s.draws := rfl

@[simp] theorem State.setBackoff_fb (s : State) (n : Nat) : (s.setBackoff n).fb = s.fb := rfl
@[simp] theorem State.setBackoff_result (s : State) (n : Nat) : (s.setBackoff n).result = s.result := rfl
@[simp] theorem State.setBackoff_worker (s : State) (n : Nat) : (s.setBackoff n).worker = s.worker := rfl
@[simp] theorem State.setBackoff_rx (s : State) (n : Nat) : (s.setBackoff n).transport.rx = s.transport.rx := rfl
@[simp] theorem State.setBackoff_line (s : State) (n : Nat) : (s.setBackoff n).transport.line = s.transport.line := rfl
@[simp] theorem State.setBackoff_backoffLeft (s : State) (n : Nat) : (s.setBackoff n).backoffLeft = n := rfl
@[simp] theorem State.setBackoff_channel (s : State) (n : Nat) : (s.setBackoff n).channel = s.channel := rfl
@[simp] theorem State.setBackoff_publishes (s : State) (n : Nat) : (s.setBackoff n).publishes = s.publishes := rfl
@[simp] theorem State.setBackoff_draws (s : State) (n : Nat) : (s.setBackoff n).draws = s.draws := rfl
@[simp] theorem State.setBackoff_transport (s : State) (n : Nat) : (s.setBackoff n).transport = s.transport := rfl

@[simp] theorem State.broadcast_fb (s : State) (f : Frame) : (s.broadcast f).fb = s.fb := rfl
@[simp] theorem State.broadcast_result (s : State) (f : Frame) : (s.broadcast f).result = s.result := rfl
@[simp] theorem State.broadcast_worker (s : State) (f : Frame) : (s.broadcast f).worker = s.worker := rfl
@[simp] theorem State.broadcast_rx (s : State) (f : Frame) : (s.broadcast f).transport.rx = s.transport.rx := rfl
@[simp] theorem State.broadcast_line (s : State) (f : Frame) : (s.broadcast f).transport.line = s.transport.line := rfl
@[simp] theorem State.broadcast_backoffLeft (s : State) (f : Frame) : (s.broadcast f).backoffLeft = s.backoffLeft := rfl
@[simp] theorem State.broadcast_channel (s : State) (f : Frame) : (s.broadcast f).channel = some f := rfl
@[simp] theorem State.broadcast_publishes (s : State) (f : Frame) : (s.broadcast f).publishes = s.publishes + 1 := rfl
@[simp] theorem State.broadcast_draws (s : State) (f : Frame) : (s.broadcast f).draws = s.draws := rfl
@[simp] theorem State.broadcast_transport (s : State) (f : Frame) : (s.broadcast f).transport = s.transport := rfl

@[simp] theorem State.receive_fb (s : State) (d : EnvDraw) : (s.receive d).fb = s.fb := rfl
@[simp] theorem State.receive_result (s : State) (d : EnvDraw) : (s.receive d).result = s.result := rfl
@[simp] theorem State.receive_worker (s : State) (d : EnvDraw) : (s.receive d).worker = s.worker := rfl
@[simp] theorem State.receive_rx (s : State) (d : EnvDraw) : (s.receive d).transport.rx = s.transport.rx ++ d.arrived := rfl
@[simp] theorem State.receive_line (s : State) (d : EnvDraw) : (s.receive d).transport.line = s.transport.line := rfl
@[simp] theorem State.receive_backoffLeft (s : State) (d : EnvDraw) : (s.receive d).backoffLeft = s.backoffLeft := rfl
@[simp] theorem State.receive_channel (s : State) (d : EnvDraw) : (s.receive d).channel = s.channel := rfl
@[simp] theorem State.receive_publishes (s : State) (d : EnvDraw) : (s.receive d).publishes = s.publishes := rfl
@[simp] theorem State.receive_draws (s : State) (d : EnvDraw) : (s.receive d).draws = s.draws + 1 := rfl

@[simp] theorem State.flush_fb (s : State) : s.flush.fb = s.fb := rfl
@[simp] theorem State.flush_result (s : State) : s.flush.result = s.result := rfl
@[simp] theorem State.flush_worker (s : State) : s.flush.worker = s.worker := rfl
@[simp] theorem State.flush_rx (s : State) : s.flush.transport.rx = [] := rfl
@[simp] theorem State.flush_line (s : State) : s.flush.transport.line = s.transport.line := rfl
@[simp] theorem State.flush_backoffLeft (s : State) : s.flush.backoffLeft = s.backoffLeft := rfl
@[simp] theorem State.flush_channel (s : State) : s.flush.channel = s.channel := rfl
@[simp] theorem State.flush_publishes (s : State) : s.flush.publishes = s.publishes := rfl
@[simp] theorem State.flush_draws (s : State) : s.flush.draws = s.draws := rfl

@[simp] theorem State.setProgram_fb (s : State) (ts : List Transaction) : (s.setProgram ts).fb = s.fb := rfl
@[simp] theorem State.setProgram_result (s : State) (ts : List Transaction) : (s.setProgram ts).result = s.result := rfl
@[simp] theorem State.setProgram_worker (s : State) (ts : List Transaction) : (s.setProgram ts).worker = .program ts := rfl
@[simp] theorem State.setProgram_rx (s : State) (ts : List Transaction) : (s.setProgram ts).transport.rx = s.transport.rx := rfl
@[simp] theorem State.setProgram_line (s : State) (ts : List Transaction) : (s.setProgram ts).transport.line = s.transport.line := rfl
@[simp] theorem State.setProgram_backoffLeft (s : State) (ts : List Transaction) : (s.setProgram ts).backoffLeft = s.backoffLeft := rfl
@[simp] theorem State.setProgram_channel (s : State) (ts : List Transaction) : (s.setProgram ts).channel = s.channel := rfl
@[simp] theorem State.setProgram_publishes (s : State) (ts : List Transaction) : (s.setProgram ts).publishes = s.publishes := rfl
@[simp] theorem State.setProgram_draws (s : State) (ts : List Transaction) : (s.setProgram ts).draws = s.draws := rfl
@[simp] theorem State.setProgram_transport (s : State) (ts : List Transaction) : (s.setProgram ts).transport = s.transport := rfl

end Sys2Proof.Machine
end

