-- ==== Sys2Proof/Laws/Ops.lean ====
section
/-! SUPPORT. What each shared operation can do, said once: the lemmas later proofs cite instead of unfolding the operation. -/

namespace Sys2Proof.Machine

/-! ## The parameters -/

@[simp] theorem params_chMin : params.chMin = 364 := rfl
@[simp] theorem params_chMax : params.chMax = 1684 := rfl
@[simp] theorem params_swInvalid : params.swInvalid = 0 := rfl
@[simp] theorem params_backoffUnits : params.backoffUnits = 3 := rfl
@[simp] theorem params_nKeycodes : params.nKeycodes = 26 := rfl

/-! ## The validator's comparisons -/

/-- The channel comparator in numbers (R60). -/
theorem inWindow_iff (v : BitVec 11) : inWindow v = true ↔ 364 ≤ v.toNat ∧ v.toNat ≤ 1684 := by
  unfold inWindow
  rw [Bool.and_eq_true, decide_eq_true_iff, decide_eq_true_iff, params_chMin, params_chMax]

/-- The switch test in numbers (R64). -/
theorem switchPresent_iff (v : BitVec 2) : switchPresent v = true ↔ v ≠ 0 := by
  revert v
  decide

/-! ## Reading and observing the frame buffer -/

theorem outputOf_of_fb {s : State} {b : FrameBuffer} (h : s.fb = some b) (a : Result) (g : FrameBits → Result) :
    s.outputOf a g = g (frameBits b) := by
  simp [State.outputOf, h]

theorem outputOf_of_undef {s : State} (h : s.fb = none) (a : Result) (g : FrameBits → Result) : s.outputOf a g = a := by
  simp [State.outputOf, h]

/-- What a read of `FB` can give: the function's value on a frame vector, or what stands for no value. -/
theorem outputOf_cases (a : Result) (g : FrameBits → Result) (s : State) :
    (∃ b, s.fb = some b ∧ s.outputOf a g = g (frameBits b)) ∨ (s.fb = none ∧ s.outputOf a g = a) := by
  cases h : s.fb with
  | none => exact .inr ⟨rfl, outputOf_of_undef h a g⟩
  | some b => exact .inl ⟨b, rfl, outputOf_of_fb h a g⟩

theorem readFb_of_fb {s : State} {b : FrameBuffer} (h : s.fb = some b) (g : FrameBits → Result) :
    readFb g s = .next (s.produce (g (frameBits b))) := by
  rw [readFb, outputOf_of_fb h]

theorem readFb_of_undef {s : State} (h : s.fb = none) (g : FrameBits → Result) :
    readFb g s = .next (s.produce .undef) := by
  rw [readFb, outputOf_of_undef h]

/-- An operation that reads `FB` answers a next state in every state, and only `result` changes. -/
theorem readFb_next_iff {g : FrameBits → Result} {s t : State} :
    readFb g s = .next t ↔ t = s.produce (s.outputOf .undef g) := by
  simp [readFb, eq_comm]

theorem observe_of_fb {s : State} {b : FrameBuffer} (h : s.fb = some b) :
    s.observe = s.produce (observationOf (frameBits b)) := by
  rw [State.observe, outputOf_of_fb h]

theorem observe_of_undef {s : State} (h : s.fb = none) : s.observe = s.produce .refused := by
  rw [State.observe, outputOf_of_undef h]

/-! ## The decoded outputs -/

theorem frame_of_fb {s : State} {b : FrameBuffer} (h : s.fb = some b) :
    s.frame = some (decodeFrame params.swLFirst (frameBits b)) := by
  simp [State.frame, h]

theorem frame_of_undef {s : State} (h : s.fb = none) : s.frame = none := by
  simp [State.frame, h]

theorem corrupted_of_fb {s : State} {b : FrameBuffer} (h : s.fb = some b) :
    s.corrupted = some (corruptedOf (decodeFrame params.swLFirst (frameBits b))) := by
  simp [State.corrupted, frame_of_fb h]

theorem corrupted_of_undef {s : State} (h : s.fb = none) : s.corrupted = none := by
  simp [State.corrupted, frame_of_undef h]

/-! ## The environment's operations -/

theorem takeFrame_none_iff {bs : List Byte} : takeFrame bs = none ↔ bs.length < 18 := by
  unfold takeFrame
  split <;> simp_all

/-- What `takeFrame` answers: the first 18 bytes, and what follows them. -/
theorem takeFrame_some_iff {bs rest : List Byte} {b : FrameBuffer} :
    takeFrame bs = some (b, rest) ↔ bs = b.toList ++ rest := by
  unfold takeFrame
  constructor
  · intro h
    split at h
    · simp only [Option.some.injEq, Prod.mk.injEq] at h
      obtain ⟨rfl, rfl⟩ := h
      simp [Vector.toList]
    · cases h
  · rintro rfl
    have hb : b.toList.length = 18 := by simp
    rw [dif_pos (by simp)]
    simp only [Option.some.injEq, Prod.mk.injEq]
    constructor
    · apply Vector.toList_inj.mp
      simp [Vector.toList]
    · rw [List.drop_append_of_le_length (by simp), List.drop_of_length_le (by simp)]
      simp

/-- What construction can do: it stops on an absent transport, and else configures it and resets the block. -/
theorem constructInstance_cases (present : Bool) (s : State) :
    (present = false ∧ constructInstance present s = .fault .transportMissing) ∨
    (present = true ∧ constructInstance present s =
      .next (((s.voidFb.produceNothing).configureLine params.line).goto .workerStart)) := by
  cases present <;> simp [constructInstance]

/-- What `AWAIT_FRAME` can do: load a received frame, stay blocked, or load a drawn one after an early return. -/
theorem awaitFrame_cases (timeout : Bool) (d : EnvDraw) (s : State) :
    (∃ b rest, s.transport.rx = b.toList ++ rest ∧
      awaitFrame timeout d s = (((s.setRx rest).loadFb b).produceNothing).goto .validate) ∨
    (s.transport.rx.length < 18 ∧ (timeout && d.timesOut) = true ∧
      awaitFrame timeout d s = (((s.setRx d.rxAfter).loadFb d.frame).produceNothing).goto .validate) ∨
    (s.transport.rx.length < 18 ∧ (timeout && d.timesOut) = false ∧ awaitFrame timeout d s = s) := by
  cases h : takeFrame s.transport.rx with
  | some p =>
    obtain ⟨b, rest⟩ := p
    exact .inl ⟨b, rest, takeFrame_some_iff.mp h, by simp [awaitFrame, h]⟩
  | none =>
    refine .inr ?_
    cases ht : timeout && d.timesOut
    · exact .inr ⟨takeFrame_none_iff.mp h, rfl, by simp [awaitFrame, h, ht]⟩
    · exact .inl ⟨takeFrame_none_iff.mp h, rfl, by simp [awaitFrame, h, ht]⟩

/-- What `VALIDATE` can do: observe, and go where the verdict sends the loop; or, without a verdict, stay. -/
theorem validateStep_cases (s : State) :
    (s.corrupted = some true ∧ validateStep s = s.observe.goto .resetRecover) ∨
    (s.corrupted = some false ∧ validateStep s = s.observe.goto .publish) ∨
    (s.corrupted = none ∧ validateStep s = s.observe) := by
  unfold validateStep
  split <;> simp [*]

/-- What `PUBLISH` can do: broadcast the decoded frame, if there is one, and go on. -/
theorem publishStep_cases (s : State) :
    (∃ f, s.frame = some f ∧ publishStep s = (s.broadcast f).goto .awaitFrame) ∨
    (s.frame = none ∧ publishStep s = s.goto .awaitFrame) := by
  unfold publishStep
  split <;> simp [*]

/-- Raw bytes are an instruction exactly when they decode with nothing left. -/
theorem fetchTransaction_wire_ok_iff {bs : List Byte} {i : Instr} :
    fetchTransaction (.wire bs) = .ok i ↔ decode bs = .ok (i, []) := by
  unfold fetchTransaction
  cases h : decode bs with
  | error e => simp [h]
  | ok p =>
    obtain ⟨j, rest⟩ := p
    cases rest <;> simp [h]

/-! ## One step -/

theorem step_loop {s : State} {st : LoopState} (h : s.worker = .loop st) :
    step s = loopStep st (Config.draw s.draws) s := by
  simp [step, h]

theorem step_idle {s : State} (h : s.worker = .program []) : step s = .next s := by
  simp [step, h]

theorem step_program {s : State} {t : Transaction} {rest : List Transaction} {i : Instr}
    (h : s.worker = .program (t :: rest)) (hf : fetchTransaction t = .ok i) :
    step s = exec i (s.setProgram rest) := by
  simp [step, h, hf]

end Sys2Proof.Machine
end

