-- ==== Sys2Proof/Laws/Exec.lean ====
section
/-! SUPPORT. Each operation of `exec` as the shared operation it is, and what the operations that read `FB` have in common. -/

namespace Sys2Proof.Machine

theorem exec_extChRX (s : State) : exec .extChRX s = readFb (fun w => .channel (sliceChRX w)) s := rfl
theorem exec_extChRY (s : State) : exec .extChRY s = readFb (fun w => .channel (sliceChRY w)) s := rfl
theorem exec_extChLX (s : State) : exec .extChLX s = readFb (fun w => .channel (sliceChLX w)) s := rfl
theorem exec_extChLY (s : State) : exec .extChLY s = readFb (fun w => .channel (sliceChLY w)) s := rfl
theorem exec_extSwA (s : State) : exec .extSwA s = readFb (fun w => .switch (sliceSwA w)) s := rfl
theorem exec_extSwB (s : State) : exec .extSwB s = readFb (fun w => .switch (sliceSwB w)) s := rfl
theorem exec_extX (s : State) : exec .extX s = readFb (fun w => .delta (s16 (sliceX w))) s := rfl
theorem exec_extY (s : State) : exec .extY s = readFb (fun w => .delta (s16 (sliceY w))) s := rfl
theorem exec_extZ (s : State) : exec .extZ s = readFb (fun w => .delta (s16 (sliceZ w))) s := rfl
theorem exec_extPressL (s : State) : exec .extPressL s = readFb (fun w => .press (slicePressL w)) s := rfl
theorem exec_extPressR (s : State) : exec .extPressR s = readFb (fun w => .press (slicePressR w)) s := rfl
theorem exec_extKey (s : State) : exec .extKey s = readFb (fun w => .mask (sliceKey w)) s := rfl
theorem exec_extRes (s : State) : exec .extRes s = readFb (fun w => .mask (sliceRes w)) s := rfl
theorem exec_mapSw (s : State) : exec .mapSw s = readFb (fun w => .switches (mapSwitches params.swLFirst (sliceSwA w) (sliceSwB w)).1
      (mapSwitches params.swLFirst (sliceSwA w) (sliceSwB w)).2) s := rfl
theorem exec_decode (s : State) : exec .decode s = readFb (fun w => .frame (decodeFrame params.swLFirst w)) s := rfl
theorem exec_chkChRX (s : State) : exec .chkChRX s = readFb (fun w => .term (okChRX (decodeFrame params.swLFirst w))) s := rfl
theorem exec_chkChRY (s : State) : exec .chkChRY s = readFb (fun w => .term (okChRY (decodeFrame params.swLFirst w))) s := rfl
theorem exec_chkChLX (s : State) : exec .chkChLX s = readFb (fun w => .term (okChLX (decodeFrame params.swLFirst w))) s := rfl
theorem exec_chkChLY (s : State) : exec .chkChLY s = readFb (fun w => .term (okChLY (decodeFrame params.swLFirst w))) s := rfl
theorem exec_chkSwL (s : State) : exec .chkSwL s = readFb (fun w => .term (okSwL (decodeFrame params.swLFirst w))) s := rfl
theorem exec_chkSwR (s : State) : exec .chkSwR s = readFb (fun w => .term (okSwR (decodeFrame params.swLFirst w))) s := rfl
theorem exec_valid (s : State) : exec .valid s = readFb (fun w => .verdict (corruptedOf (decodeFrame params.swLFirst w))) s := rfl
theorem exec_obs (s : State) : exec .obs s = .next s.observe := rfl
theorem exec_obs_of_fb {s : State} {b : FrameBuffer} (h : s.fb = some b) :
    exec .obs s = .next (s.produce (observationOf (frameBits b))) := by
  rw [exec_obs, observe_of_fb h]
theorem exec_obs_of_undef {s : State} (h : s.fb = none) : exec .obs s = .next (s.produce .refused) := by
  rw [exec_obs, observe_of_undef h]
theorem exec_frame (w : FrameBits) (s : State) :
    exec (.frame w) s = .next ((s.loadFb (frameBytes w)).produce (observationOf w)) := rfl
theorem exec_rst (s : State) : exec .rst s = .next s.voidFb.produceNothing := rfl
theorem exec_load (b : FrameBuffer) (s : State) : exec (.load b) s = .next (s.loadFb b).produceNothing := rfl
theorem exec_encode_of_inRange {f : Frame} (h : f.inRange = true) (s : State) :
    exec (.encode f) s = .next (s.produce (.bits (encodeFrame params.swLFirst f))) := by
  simp [exec, execEncode, h]
theorem exec_encode_of_outOfRange {f : Frame} (h : f.inRange = false) (s : State) :
    exec (.encode f) s = .refused .notAFrame := by
  simp [exec, execEncode, h]

/-- Every operation that reads `FB`, but `OBS`, produces one function of the frame vector, the same in every state. -/
theorem exec_readsFb (i : Instr) (h : i.readsFb = true) (ho : i ≠ .obs) : ∃ g : FrameBits → Result, ∀ s, exec i s = readFb g s := by
  cases i
  case frame => simp [Instr.readsFb] at h
  case encode => simp [Instr.readsFb] at h
  case rst => simp [Instr.readsFb] at h
  case load => simp [Instr.readsFb] at h
  case extChRX => exact ⟨_, exec_extChRX⟩
  case extChRY => exact ⟨_, exec_extChRY⟩
  case extChLX => exact ⟨_, exec_extChLX⟩
  case extChLY => exact ⟨_, exec_extChLY⟩
  case extSwA => exact ⟨_, exec_extSwA⟩
  case extSwB => exact ⟨_, exec_extSwB⟩
  case extX => exact ⟨_, exec_extX⟩
  case extY => exact ⟨_, exec_extY⟩
  case extZ => exact ⟨_, exec_extZ⟩
  case extPressL => exact ⟨_, exec_extPressL⟩
  case extPressR => exact ⟨_, exec_extPressR⟩
  case extKey => exact ⟨_, exec_extKey⟩
  case extRes => exact ⟨_, exec_extRes⟩
  case mapSw => exact ⟨_, exec_mapSw⟩
  case decode => exact ⟨_, exec_decode⟩
  case chkChRX => exact ⟨_, exec_chkChRX⟩
  case chkChRY => exact ⟨_, exec_chkChRY⟩
  case chkChLX => exact ⟨_, exec_chkChLX⟩
  case chkChLY => exact ⟨_, exec_chkChLY⟩
  case chkSwL => exact ⟨_, exec_chkSwL⟩
  case chkSwR => exact ⟨_, exec_chkSwR⟩
  case valid => exact ⟨_, exec_valid⟩
  case obs => exact absurd rfl ho

/-- A run of `k + 1` steps is a step and then a run of `k`. -/
theorem core_run_succ {s t : State} (h : step s = .next t) (k : Nat) :
    Host.Core.run Sys2Proof.core (k + 1) s = Host.Core.run Sys2Proof.core k t := by
  simp only [Host.Core.run]
  rw [show Sys2Proof.core.step s = .next t from h]

end Sys2Proof.Machine
end

