-- ==== Sys2Proof/Laws/PerInstr.lean ====
section
/-! SUPPORT. What holds of every row of the operation table, one lemma for each constructor of `Instr`: no bit pattern selects a row, each
row is selected by every word (30_encoding.md R34), and the bits a row reads lie in the frame vector (R31). -/

namespace Sys2Proof.Laws.Selection

/-- Every word selects the row, for either switch order, and the row's bit ranges lie within bits 0 to 143. -/
def Statement (i : Instr) : Prop :=
  ∀ swLFirst : Bool, (∀ w : FrameBits, (tableRow swLFirst i).selectedBy w = true) ∧
    ∀ r ∈ (tableRow swLFirst i).reads, r.lo ≤ r.hi ∧ r.hi < 144

theorem always_selected (reads : List BitRange) (w : FrameBits) : (alwaysRow reads).selectedBy w = true := by
  simp [TableRow.selectedBy, alwaysRow]

theorem transaction_selected (w : FrameBits) : transactionRow.selectedBy w = true := by
  simp [TableRow.selectedBy, transactionRow]

theorem frame (w : FrameBits) : Statement (.frame w) :=
  fun _ => ⟨always_selected _, by simp [tableRow, alwaysRow]⟩

theorem extChRX : Statement .extChRX :=
  fun _ => ⟨always_selected _, by simp [tableRow, alwaysRow]⟩

theorem extChRY : Statement .extChRY :=
  fun _ => ⟨always_selected _, by simp [tableRow, alwaysRow]⟩

theorem extChLX : Statement .extChLX :=
  fun _ => ⟨always_selected _, by simp [tableRow, alwaysRow]⟩

theorem extChLY : Statement .extChLY :=
  fun _ => ⟨always_selected _, by simp [tableRow, alwaysRow]⟩

theorem extSwA : Statement .extSwA :=
  fun _ => ⟨always_selected _, by simp [tableRow, alwaysRow]⟩

theorem extSwB : Statement .extSwB :=
  fun _ => ⟨always_selected _, by simp [tableRow, alwaysRow]⟩

theorem extX : Statement .extX :=
  fun _ => ⟨always_selected _, by simp [tableRow, alwaysRow]⟩

theorem extY : Statement .extY :=
  fun _ => ⟨always_selected _, by simp [tableRow, alwaysRow]⟩

theorem extZ : Statement .extZ :=
  fun _ => ⟨always_selected _, by simp [tableRow, alwaysRow]⟩

theorem extPressL : Statement .extPressL :=
  fun _ => ⟨always_selected _, by simp [tableRow, alwaysRow]⟩

theorem extPressR : Statement .extPressR :=
  fun _ => ⟨always_selected _, by simp [tableRow, alwaysRow]⟩

theorem extKey : Statement .extKey :=
  fun _ => ⟨always_selected _, by simp [tableRow, alwaysRow]⟩

theorem extRes : Statement .extRes :=
  fun _ => ⟨always_selected _, by simp [tableRow, alwaysRow]⟩

theorem mapSw : Statement .mapSw :=
  fun _ => ⟨always_selected _, by simp [tableRow, alwaysRow]⟩

theorem decode : Statement .decode :=
  fun _ => ⟨always_selected _, by simp [tableRow, alwaysRow]⟩

theorem encode (f : Frame) : Statement (.encode f) :=
  fun _ => ⟨always_selected _, by simp [tableRow, alwaysRow]⟩

theorem chkChRX : Statement .chkChRX :=
  fun _ => ⟨always_selected _, by simp [tableRow, alwaysRow]⟩

theorem chkChRY : Statement .chkChRY :=
  fun _ => ⟨always_selected _, by simp [tableRow, alwaysRow]⟩

theorem chkChLX : Statement .chkChLX :=
  fun _ => ⟨always_selected _, by simp [tableRow, alwaysRow]⟩

theorem chkChLY : Statement .chkChLY :=
  fun _ => ⟨always_selected _, by simp [tableRow, alwaysRow]⟩

theorem chkSwL : Statement .chkSwL :=
  fun o => ⟨always_selected _, by cases o <;> simp [tableRow, alwaysRow, swLRange]⟩

theorem chkSwR : Statement .chkSwR :=
  fun o => ⟨always_selected _, by cases o <;> simp [tableRow, alwaysRow, swRRange]⟩

theorem valid : Statement .valid :=
  fun _ => ⟨always_selected _, by simp [tableRow, alwaysRow]⟩

theorem rst : Statement .rst :=
  fun _ => ⟨transaction_selected, by simp [tableRow, transactionRow]⟩

theorem load (b : FrameBuffer) : Statement (.load b) :=
  fun _ => ⟨transaction_selected, by simp [tableRow, transactionRow]⟩

theorem obs : Statement .obs :=
  fun _ => ⟨transaction_selected, by simp [tableRow, transactionRow]⟩

end Sys2Proof.Laws.Selection
end

