-- ==== Sys2Proof/Tests/Slice0.lean ====
section
/-! SUPPORT. Tests: each expected value is taken from the spec (the rule or vector is named), none from the model. -/

namespace Sys2Proof.Tests

open Machine

/-! ## Vectors of 95_test_vectors.md -/

/-- V1, Scenario A. -/
def v1 : FrameBuffer := #v[0x6C, 0xA1, 0x34, 0x00, 0x01, 0x58, 0, 0, 0, 0, 0, 0, 0, 0, 0, 0, 0, 0]
/-- V2, Scenario B. -/
def v2 : FrameBuffer := #v[0x6B, 0xA1, 0x34, 0x00, 0x01, 0x58, 0, 0, 0, 0, 0, 0, 0, 0, 0, 0, 0, 0]
/-- V3, Scenario C. -/
def v3 : FrameBuffer := #v[0x6C, 0xA1, 0x34, 0x00, 0x01, 0x48, 0, 0, 0, 0, 0, 0, 0, 0, 0, 0, 0, 0]
/-- V7. -/
def v7 : FrameBuffer :=
  #v[0x55, 0x55, 0x15, 0xFA, 0xB8, 0xEB, 0x00, 0x80, 0xFF, 0x7F, 0xFE, 0xFF, 0x01, 0x00, 0x01, 0x80, 0xEF, 0xBE]
/-- V11. -/
def v11 : FrameBuffer := #v[0x00, 0x04, 0x20, 0x00, 0x2B, 0x7D, 0, 0, 0, 0, 0, 0, 0, 0, 0, 0, 0, 0]
/-- V13. -/
def v13 : FrameBuffer :=
  #v[0xDE, 0xAD, 0xBE, 0xEF, 0x01, 0x23, 0x45, 0x67, 0x89, 0xAB, 0xCD, 0xEF, 0xFE, 0xDC, 0xBA, 0x98, 0x76, 0x54]

/-- V7's frame with `SW_L_FIRST = true`. -/
def v7Frame : Frame :=
  { chRX := 1365, chRY := 682, chLX := 1000, chLY := 1500, swL := 2, swR := 3, x := -32768, y := 32767, z := -2,
    pressL := 1, pressR := 0, key := 0x8001, res := 0xBEEF }

/-- V13's frame with `SW_L_FIRST = true`. -/
def v13Frame : Frame :=
  { chRX := 1502, chRY := 2005, chLX := 1982, chLY := 384, swL := 2, swR := 0, x := 26437, y := -21623, z := -4147,
    pressL := 254, pressR := 220, key := 39098, res := 21622 }

/-- A state whose frame buffer holds `b`, with no transaction pending. -/
def holding (b : FrameBuffer) : State := (State.reset.loadFb b).setProgram []

/-- A state of the acquisition loop with `rx` received and `FB` as given. -/
def looping (st : LoopState) (fb : Option FrameBuffer) (rx : List Byte) : State :=
  { State.reset with fb := fb, worker := .loop st, transport := { rx := rx, line := some params.line } }

/-- What an answer's next state says was produced. -/
def resultOf : Answer → Option Result
  | .next t => t.result
  | .fault _ => none
  | .refused _ => none

/-! ## Well-formedness: one ill-formed term for each check (R55) -/

theorem test_wellFormed_encode : (Instr.encode v7Frame).wellFormed = true := by decide
theorem test_illFormed_x : (Instr.encode { v7Frame with x := 32768 }).wellFormed = false := by decide
theorem test_illFormed_y : (Instr.encode { v7Frame with y := -32769 }).wellFormed = false := by decide
theorem test_illFormed_z : (Instr.encode { v7Frame with z := 40000 }).wellFormed = false := by decide
theorem test_encode_refuses_illFormed :
    exec (.encode { v7Frame with x := 32768 }) State.reset = .refused .notAFrame := by rfl

/-! ## The encoding (R20, R30 to R32) -/

/-- P6: the first six bytes of V7, low first, are `0xEBB8FA155555`; the rest by R21. -/
theorem test_decode_v7 :
    decode v7.toList = .ok (.frame 0xBEEF80010001FFFE7FFF8000EBB8FA155555#144, []) := by rfl

/-- R32 byte by byte: bit 0 of byte 0, bit 2 of byte 1, bit 7 of byte 17. -/
theorem test_decode_bits :
    decode (v1.toList.map (fun _ => 0#8)) = .ok (.frame 0#144, []) ∧
    decode ([1, 4] ++ List.replicate 16 0 ) = .ok (.frame 0x401#144, []) ∧
    decode (List.replicate 17 0 ++ [0x80, 7]) = .ok (.frame (1#144 <<< 143), [7]) := by
  refine ⟨rfl, rfl, rfl⟩

/-- R30, U17: 17 bytes are no frame. -/
theorem test_decode_short : decode (List.replicate 17 0) = .error (.partialFrame 17) := by rfl

theorem test_encode_v7 : encode (.frame 0xBEEF80010001FFFE7FFF8000EBB8FA155555#144) = some v7.toList := by decide

theorem test_decodeTableWord : decodeTableWord 144 0x401 = some (.frame 0x401#144) := by rfl

theorem test_decodeTableWord_long : decodeTableWord 152 0x401 = none := by rfl

/-- The placed wire frame is what the next step runs. -/
theorem test_withFetchWord : step (State.reset.withFetchWord 144 0x401) = execFrame 0x401#144 (State.reset.setProgram []) := by rfl

/-! ## The frame decoder (R40 to R58; V7, V13 and the one-hot table) -/

theorem test_decodeFrame_v7 : decodeFrame true (frameBits v7) = v7Frame := by decide
theorem test_decodeFrame_v13 : decodeFrame true (frameBits v13) = v13Frame := by decide
theorem test_decodeFrame_v13_swapped :
    decodeFrame false (frameBits v13) = { v13Frame with swL := 0, swR := 2 } := by decide
theorem test_encodeFrame_v7 : frameBytes (encodeFrame true v7Frame) = v7 := by decide
theorem test_encodeFrame_v13 : encodeFrame true v13Frame = frameBits v13 := by decide

/-- The one-hot table: frame bits 10, 11, 32, 33, 43 to 47. -/
theorem test_oneHot_channels :
    (sliceChRX (1 <<< 10), sliceChRY (1 <<< 11), sliceChLX (1 <<< 32), sliceChLY (1 <<< 33), sliceChLY (1 <<< 43)) =
      (1024#11, 1#11, 1024#11, 1#11, 1024#11) ∧
    (sliceSwA (1 <<< 44), sliceSwA (1 <<< 45), sliceSwB (1 <<< 46), sliceSwB (1 <<< 47)) = (1#2, 2#2, 1#2, 2#2) := by
  decide

/-- "Signed extraction corner cases". -/
theorem test_s16 : [0x0000#16, 0x7FFF, 0x8000, 0x8001, 0xFFFE, 0xFFFF].map s16 = [0, 32767, -32768, -32767, -2, -1] := by decide

theorem test_extChRX : resultOf (exec .extChRX (holding v7)) = some (.channel 1365) := by decide
theorem test_extChRY : resultOf (exec .extChRY (holding v7)) = some (.channel 682) := by decide
theorem test_extChLX : resultOf (exec .extChLX (holding v7)) = some (.channel 1000) := by decide
theorem test_extChLY : resultOf (exec .extChLY (holding v7)) = some (.channel 1500) := by decide
theorem test_extSwA : resultOf (exec .extSwA (holding v7)) = some (.switch 2) := by decide
theorem test_extSwB : resultOf (exec .extSwB (holding v7)) = some (.switch 3) := by decide
theorem test_extX : resultOf (exec .extX (holding v7)) = some (.delta (-32768)) := by decide
theorem test_extY : resultOf (exec .extY (holding v7)) = some (.delta 32767) := by decide
theorem test_extZ : resultOf (exec .extZ (holding v7)) = some (.delta (-2)) := by decide
theorem test_extPressL : resultOf (exec .extPressL (holding v13)) = some (.press 254) := by decide
theorem test_extPressR : resultOf (exec .extPressR (holding v13)) = some (.press 220) := by decide
theorem test_extKey : resultOf (exec .extKey (holding v7)) = some (.mask 0x8001) := by decide
theorem test_extRes : resultOf (exec .extRes (holding v7)) = some (.mask 0xBEEF) := by decide

/-- R46's example: byte 5 = `0x98` has `sw_a = 1`, `sw_b = 2`. -/
theorem test_mapSwitches : mapSwitches true 1 2 = (1, 2) ∧ mapSwitches false 1 2 = (2, 1) := by decide

/-- R14: from reset the output holds no value; the operation runs. -/
theorem test_extChRX_undef : exec .extChRX State.reset = .next (State.reset.produce .undef) := by rfl

/-- R14: `corrupted` is `undef` after reset. -/
theorem test_valid_undef : resultOf (exec .valid State.reset) = some .undef := by rfl

/-! ## The validator (R60 to R66; the comparator table, V15, V16) -/

/-- "Comparator corner cases". -/
theorem test_inWindow :
    [0#11, 1, 363, 364, 365, 1023, 1024, 1025, 1683, 1684, 1685, 2046, 2047].map inWindow =
      [false, false, false, true, true, true, true, true, true, true, false, false, false] := by decide

theorem test_switchPresent : [0#2, 1, 2, 3].map switchPresent = [false, true, true, true] := by decide

/-- V1, V2, V3, V7, V11, V13, for either value of `SW_L_FIRST`. -/
theorem test_corrupted (o : Bool) :
    [v1, v2, v3, v7, v11, v13].map (fun b => corruptedOf (decodeFrame o (frameBits b))) =
      [false, true, true, false, true, true] := by
  cases o <;> decide

/-- V15: `ch_l_y` at 1684 and 1685. -/
theorem test_corrupted_v15 (o : Bool) :
    [#v[0x00, 0x04, 0x20, 0x00, 0x29, 0x5D, 0, 0, 0, 0, 0, 0, 0, 0, 0, 0, 0, 0],
     #v[0x00, 0x04, 0x20, 0x00, 0x2B, 0x5D, 0, 0, 0, 0, 0, 0, 0, 0, 0, 0, 0, 0]].map
      (fun b => corruptedOf (decodeFrame o (frameBits b))) = [false, true] := by
  cases o <;> decide

/-- S2: Scenario B fails at `ch_r_x` alone. -/
theorem test_terms_v2 :
    [okChRX, okChRY, okChLX, okChLY].map (fun ok => ok (decodeFrame true (frameBits v2))) = [false, true, true, true] := by decide

/-- S3: V3 has `sw_l = 0` when `SW_L_FIRST` is true, and `sw_r = 0` when it is false. -/
theorem test_terms_v3 :
    (okSwL (decodeFrame true (frameBits v3)), okSwR (decodeFrame true (frameBits v3)),
     okSwL (decodeFrame false (frameBits v3)), okSwR (decodeFrame false (frameBits v3))) = (false, true, true, false) := by decide

theorem test_valid_v2 : resultOf (exec .valid (holding v2)) = some (.verdict true) := by
  change some (Result.verdict (corruptedOf (decodeFrame params.swLFirst (frameBits v2)))) = _
  cases params.swLFirst <;> decide

/-! ## The block-level operations (R70 to R72, P1 to P3) -/

theorem test_rst : exec .rst (holding v1) = .next ((holding v1).voidFb.produceNothing) := by rfl
theorem test_load : exec (.load v2) (holding v1) = .next (holding v2) := by rfl
/-- V6. -/
def v6 : FrameBuffer := #v[0x00, 0x04, 0x20, 0x00, 0x01, 0xF8, 0, 0, 0, 0, 0, 0, 0, 0, 0, 0, 0, 0]

/-- P3's second line: the observation is refused, and the program goes on. -/
theorem test_obs_undef : exec .obs State.reset = .next (State.reset.produce .refused) := by rfl

/-- P3's first four lines, after the refused `OBS`: V6's channels are 1024 and it is valid. -/
theorem test_p3 :
    (match runOps [.rst, .obs, .load v6, .obs] State.reset with
     | .next t => t.corrupted = some false ∧ t.fb = some v6
     | .fault _ => False
     | .refused _ => False) := by
  change some (corruptedOf (decodeFrame params.swLFirst (frameBits v6))) = _ ∧ some v6 = _
  cases params.swLFirst <;> decide

/-- P1: Scenario A's observation; the two switches are equal, so either value of `SW_L_FIRST` gives it. -/
theorem test_obs_v1 :
    resultOf (exec .obs (holding v1)) =
      some (.observation
        { chRX := 364, chRY := 1684, chLX := 1024, chLY := 1024, swL := 1, swR := 1, x := 0, y := 0, z := 0,
          pressL := 0, pressR := 0, key := 0, res := 0 } false) := by
  change some (Result.observation (decodeFrame params.swLFirst (frameBits v1))
    (corruptedOf (decodeFrame params.swLFirst (frameBits v1)))) = _
  cases params.swLFirst <;> decide

/-! ## The acquisition loop (R81, R84, R87, R90) -/

/-- The verdicts on V1 and V2 in a state of the loop, for either value of `SW_L_FIRST`. -/
theorem looping_corrupted (st : LoopState) :
    (looping st (some v1) []).corrupted = some false ∧ (looping st (some v2) []).corrupted = some true := by
  change some (corruptedOf (decodeFrame params.swLFirst (frameBits v1))) = _ ∧
    some (corruptedOf (decodeFrame params.swLFirst (frameBits v2))) = _
  cases params.swLFirst <;> decide

/-- A valid frame is published and an invalid one is not (S1, S2). -/
theorem test_validate_v1 : (validateStep (looping .validate (some v1) [])).worker = .loop .publish := by
  rw [validateStep, (looping_corrupted _).1]
  rfl

theorem test_validate_v2 : (validateStep (looping .validate (some v2) [])).worker = .loop .resetRecover := by
  rw [validateStep, (looping_corrupted _).2]
  rfl

/-- `AWAIT_FRAME` loads the first 18 bytes and leaves the rest (R81). -/
theorem test_awaitFrame (d : EnvDraw) :
    awaitFrame false d (looping .awaitFrame none (v1.toList ++ [7])) = looping .validate (some v1) [7] := by rfl

/-- Seventeen bytes leave the worker blocked (R84). -/
theorem test_awaitFrame_blocks (d : EnvDraw) :
    awaitFrame false d (looping .awaitFrame none (List.replicate 17 0)) = looping .awaitFrame none (List.replicate 17 0) := by rfl

theorem test_construct_absent : constructInstance false State.reset = .fault .transportMissing := by rfl

/-! ## Key codes (S8: `N = 26`, `k = 5`) -/

theorem test_keyCodes : (shiftWith 5, ctrlWith 5, shiftCtrlWith 5) = (31, 57, 83) := by decide

/-! ## Witnesses: for each statement with hypotheses, values that meet them together (named after the statement) -/

/-- V17: the same first six bytes as V6, different others. -/
def v17 : FrameBuffer := #v[0x00, 0x04, 0x20, 0x00, 0x01, 0xF8, 255, 255, 255, 255, 255, 255, 255, 255, 255, 255, 255, 255]

/-- The hypothesis of ChannelExtraction, SwitchPairExtraction, SwitchMapping, MotionExtraction, FlagKeyReservedExtraction, DecodeIsTotal,
ChannelChecks, SwitchChecks, VerdictIsTheConjunction and ObsPairsFrameAndVerdict (first clause). -/
theorem witness_fb_holds_a_frame : (holding v7).fb = some v7 := rfl

/-- ObsPairsFrameAndVerdict (second clause), ResetLeavesNoFrame (fourth clause; an operation other than `OBS`). -/
theorem witness_fb_undef : State.reset.fb = none ∧ Instr.extX.readsFb = true ∧ Instr.extX ≠ .obs := ⟨rfl, rfl, by decide⟩

/-- ResetLeavesNoFrame (fifth clause), for `LOAD` and for a wire frame. -/
theorem witness_ResetLeavesNoFrame :
    State.reset.fb = none ∧ exec (.load v1) State.reset = .next (State.reset.loadFb v1).produceNothing ∧
    (State.reset.loadFb v1).produceNothing.fb ≠ none ∧
    ∃ t, exec (.frame 0) State.reset = .next t ∧ t.fb ≠ none :=
  ⟨rfl, rfl, by decide, _, rfl, by decide⟩

/-- KeyBitPositions: both ends of both bytes; V7's key mask is `0x8001`. -/
theorem witness_KeyBitPositions :
    (0 < 16 ∧ (decodeFrame true (frameBits v7)).key.getLsbD 0 = true) ∧ (7 < 16 ∧ (decodeFrame true (frameBits v7)).key.getLsbD 7 = false) ∧
    (8 < 16 ∧ (decodeFrame true (frameBits v7)).key.getLsbD 8 = false) ∧ (15 < 16 ∧ (decodeFrame true (frameBits v7)).key.getLsbD 15 = true) := by
  decide

/-- EncodePacksEveryField and FrameRoundTrip. -/
theorem witness_inRange : v7Frame.inRange = true ∧ decodeFrame true (frameBits v7) = decodeFrame true (frameBits v7) := by decide

/-- FieldIndependence: buffers that agree on `ch_r_x` (V1, V3) and buffers that do not (V1, V2). -/
theorem witness_FieldIndependence :
    Instr.extChRX.readsFb = true ∧ (tableRow params.swLFirst .extChRX).format = .frame144 ∧ Instr.extChRX.extracts = true ∧
    (∀ p ∈ (tableRow params.swLFirst .extChRX).reads, agreeOn p (frameBits v1) (frameBits v3)) ∧
    ∃ p ∈ (tableRow params.swLFirst .extChRX).reads, ¬ agreeOn p (frameBits v1) (frameBits v2) := by
  refine ⟨rfl, rfl, rfl, ?_, ⟨10, 0⟩, List.mem_singleton.mpr rfl, fun h => absurd (h 0 (by decide) (by decide)) (by decide)⟩
  intro p hp
  rw [List.mem_singleton.mp hp]
  intro k _ hk
  have : ∀ k : Fin 11, (frameBits v1).getLsbD k = (frameBits v3).getLsbD k := by decide
  exact this ⟨k, Nat.lt_succ_of_le hk⟩

/-- WireFramesDecode: an operation with an encoding, words that decode, and a sequence too short. -/
theorem witness_WireFramesDecode :
    (Instr.frame 0).wellFormed = true ∧ encode (.frame 0) = some (List.replicate 18 0) ∧
    decode (List.replicate 18 0 ++ [7]) = .ok (.frame 0, [7]) ∧ ([] : List Byte).length < 18 :=
  ⟨rfl, by decide, rfl, by decide⟩

/-- NoFrameIsIllegal. -/
theorem witness_NoFrameIsIllegal : Instr.valid.readsFb = true := rfl

/-- StepRunsTheNextTransaction, clause by clause; 17 and 19 bytes are the two sides of 18. -/
theorem witness_StepRunsTheNextTransaction :
    ((State.reset.setProgram [.wire (List.replicate 18 0)]).worker = .program (.wire (List.replicate 18 0) :: []) ∧
      decode (List.replicate 18 0) = .ok (.frame 0, [])) ∧
    (State.reset.setProgram [.op .obs]).worker = .program (.op .obs :: []) ∧
    ((State.reset.setProgram [.wire (List.replicate 17 0)]).worker = .program (.wire (List.replicate 17 0) :: []) ∧
      (List.replicate 17 0#8).length ≠ 18) ∧
    ((State.reset.setProgram [.wire (List.replicate 19 0)]).worker = .program (.wire (List.replicate 19 0) :: []) ∧
      (List.replicate 19 0#8).length ≠ 18) ∧
    (State.reset.setProgram []).worker = .program [] :=
  ⟨⟨rfl, rfl⟩, rfl, ⟨rfl, by decide⟩, ⟨rfl, by decide⟩, rfl⟩

/-- VerdictInFrameBits (third clause). -/
theorem witness_VerdictInFrameBits : (∀ j : Fin 18, j < 6 → v6[j] = v17[j]) ∧ v6 ≠ v17 := by decide

/-- ValidatorProperties: the ends of the window inside (V9, V10) and outside. -/
theorem witness_ValidatorProperties :
    (364 ≤ (364#11).toNat ∧ (364#11).toNat ≤ 1684) ∧ (364 ≤ (1684#11).toNat ∧ (1684#11).toNat ≤ 1684) ∧ (1#2 ≠ 0 ∧ 3#2 ≠ 0) ∧
    ((363#11).toNat < 364 ∨ 1684 < (363#11).toNat) ∧ ((1685#11).toNat < 364 ∨ 1684 < (1685#11).toNat) := by
  decide

/-- FalseAcceptance: the first and the last byte no check reads. -/
theorem witness_FalseAcceptance : (6 : Fin 18) ≤ 6 ∧ (6 : Fin 18) ≤ 17 := by decide

/-- ObservationsFollowTheLastLoad: a load over a load, and an observation. -/
theorem witness_ObservationsFollowTheLastLoad :
    runOps [.load v1, .load v2, .extX] State.reset = .next ((State.reset.loadFb v2).produce (.delta 0)) ∧
    fbAfterAll [.load v1, .load v2, .extX] State.reset.fb = some v2 :=
  ⟨rfl, rfl⟩

/-- OperationFrame: an operation with a next state, and one that is none of the three writers. -/
theorem witness_OperationFrame :
    exec .extX (holding v7) = .next ((holding v7).produce (.delta (-32768))) ∧
    (∀ w, Instr.extX ≠ .frame w) ∧ (∀ b, Instr.extX ≠ .load b) ∧ Instr.extX ≠ .rst :=
  ⟨rfl, nofun, nofun, nofun⟩

/-- ConstructionNeedsTheTransport, both clauses. -/
theorem witness_ConstructionNeedsTheTransport :
    State.reset.worker = .loop .construct ∧ (holding v1).worker ≠ .loop .construct := by decide

/-- LoopTransitions, row by row. -/
theorem witness_LoopTransitions :
    (looping .workerStart none []).worker = .loop .workerStart ∧
    (looping .resetStart none []).worker = .loop .resetStart ∧
    ((looping .awaitFrame none v1.toList).worker = .loop .awaitFrame ∧
      ∀ d : EnvDraw, 18 ≤ ((looping .awaitFrame none v1.toList).transport.rx ++ d.arrived).length) ∧
    ((looping .validate (some v1) []).worker = .loop .validate ∧ (looping .validate (some v1) []).corrupted = some false) ∧
    ((looping .validate (some v2) []).worker = .loop .validate ∧ (looping .validate (some v2) []).corrupted = some true) ∧
    ((looping .validate none []).worker = .loop .validate ∧ (looping .validate none []).fb = none) ∧
    ((looping .publish none []).worker = .loop .publish ∧ (looping .publish none []).fb = none) ∧
    ((looping .publish (some v1) []).worker = .loop .publish ∧
      (looping .publish (some v1) []).frame = some (decodeFrame params.swLFirst (frameBits v1))) ∧
    (looping .resetRecover none []).worker = .loop .resetRecover ∧
    ((looping .backoff none []).worker = .loop .backoff ∧ (looping .backoff none []).backoffLeft = 0) ∧
    (((looping .backoff none []).setBackoff 3).worker = .loop .backoff ∧ ((looping .backoff none []).setBackoff 3).backoffLeft ≠ 0) :=
  ⟨rfl, rfl, ⟨rfl, fun d => by simp [looping]⟩, ⟨rfl, (looping_corrupted _).1⟩, ⟨rfl, (looping_corrupted _).2⟩, ⟨rfl, rfl⟩,
    ⟨rfl, rfl⟩, ⟨rfl, rfl⟩, rfl, ⟨rfl, rfl⟩, ⟨rfl, by decide⟩⟩

/-- StalledLinkBlocks: no byte, and seventeen, received. -/
theorem witness_StalledLinkBlocks :
    (looping .awaitFrame none []).worker = .loop .awaitFrame ∧ (looping .awaitFrame none []).transport.rx.length < 18 ∧
    (looping .awaitFrame none (List.replicate 17 0)).transport.rx.length < 18 := by decide

/-- FrameCyclePublishesOnce: a frame of either verdict has been received (`looping_corrupted`). -/
theorem witness_FrameCyclePublishesOnce :
    (looping .awaitFrame none (v1.toList ++ [7])).worker = .loop .awaitFrame ∧
    (looping .awaitFrame none (v1.toList ++ [7])).transport.rx = v1.toList ++ [7] ∧
    (looping .awaitFrame none (v2.toList ++ [])).transport.rx = v2.toList ++ [] :=
  ⟨rfl, rfl, rfl⟩

/-- BackoffReturnsToAwaitFrame: the timer just set, and elapsed. -/
theorem witness_BackoffReturnsToAwaitFrame :
    ((looping .backoff none []).setBackoff 3).worker = .loop .backoff ∧ ((looping .backoff none []).setBackoff 3).backoffLeft = 3 ∧
    (looping .backoff none []).backoffLeft = 0 := by decide

/-- OnlyPublishReachesTheChannel: a step in `PUBLISH` with a frame, one without, and one elsewhere. -/
theorem witness_OnlyPublishReachesTheChannel :
    (∃ t, step (looping .publish (some v1) []) = .next t) ∧ (looping .publish (some v1) []).worker = .loop .publish ∧
    (looping .publish (some v1) []).frame = some (decodeFrame params.swLFirst (frameBits v1)) ∧
    (∃ t, step (looping .publish none []) = .next t) ∧ (looping .publish none []).fb = none ∧
    (∃ t, step (looping .resetRecover none []) = .next t) ∧ (looping .resetRecover none []).worker ≠ .loop .publish :=
  ⟨⟨_, rfl⟩, rfl, rfl, ⟨_, rfl⟩, rfl, ⟨_, rfl⟩, by decide⟩

/-- OnlyLoadAndRstWriteTheBuffer: a `LOAD` of a program, and one of the loop, into a buffer without a value. -/
theorem witness_OnlyLoadAndRstWriteTheBuffer :
    (∃ t, step (State.reset.setProgram [.op (.load v1)]) = .next t ∧ t.fb ≠ (State.reset.setProgram [.op (.load v1)]).fb) ∧
    ∃ t, step (looping .awaitFrame none v1.toList) = .next t ∧ t.fb ≠ (looping .awaitFrame none v1.toList).fb := by
  refine ⟨⟨_, rfl, by decide⟩, ?_⟩
  rw [step_loop (st := .awaitFrame) rfl]
  refine ⟨_, rfl, ?_⟩
  rcases awaitFrame_cases params.transportTimeout (Config.draw 0) ((looping .awaitFrame none v1.toList).receive (Config.draw 0)) with
    ⟨b, rest, -, e⟩ | ⟨e, -⟩ | ⟨e, -⟩
  · intro h
    change (awaitFrame _ _ _).fb = none at h
    rw [show (looping .awaitFrame none v1.toList).draws = 0 from rfl, e] at h
    simp at h
  · simp [looping] at e
  · simp [looping] at e

/-- StepKeepsTheInvariant and LoopHasNoTerminalState: a good state in `VALIDATE`, which has a next state. -/
theorem witness_invariant :
    (looping .validate (some v1) []).Inv ∧ (looping .validate (some v1) []).worker = .loop .validate ∧ LoopState.validate ≠ .construct ∧
    ∃ t, step (looping .validate (some v1) []) = .next t := by
  refine ⟨?_, rfl, by decide, _, rfl⟩
  constructor <;> simp [looping, State.reset]

/-- ModifierCodesAreDisjoint: the first and the last base code. -/
theorem witness_ModifierCodesAreDisjoint : isBaseCode Config.keyCodeBase ∧ isBaseCode (Config.keyCodeBase + 25) := by
  simp only [isBaseCode, nKeycodes, params_nKeycodes]
  omega

end Sys2Proof.Tests
end

section
/-! PROOFS. Every frame is legal (30_encoding.md R35). -/

namespace Sys2Proof.Machine

/-- An operation that reads `FB` stops in no state: `OBS` answers in every state, and the others share the read of `FB`. -/
theorem exec_completes_of_readsFb {i : Instr} (h : i.readsFb = true) (s : State) : ∃ u, exec i s = .next u := by
  by_cases ho : i = .obs
  · subst ho
    exact ⟨s.observe, exec_obs s⟩
  · obtain ⟨g, hg⟩ := exec_readsFb i h ho
    exact ⟨s.produce (s.outputOf .undef g), (hg s).trans (readFb_next_iff.mpr rfl)⟩

/-- With a frame in `FB`, `EXT.res` produces `F[143:128]`, whatever these bits hold (R53). -/
theorem exec_extRes_of_fb {s : State} {b : FrameBuffer} (h : s.fb = some b) :
    exec .extRes s = .next (s.produce (.mask ((frameBits b).extractLsb 143 128))) := by
  rw [exec_extRes, readFb_of_fb h]
  rfl

/-- The verdict is a function of the four channels and the two switches: frames that agree on these have the same one, whatever their other fields
hold (R66, R68). -/
theorem corruptedOf_congr {f g : Frame} (hRX : f.chRX = g.chRX) (hRY : f.chRY = g.chRY) (hLX : f.chLX = g.chLX) (hLY : f.chLY = g.chLY)
    (hL : f.swL = g.swL) (hR : f.swR = g.swR) : corruptedOf f = corruptedOf g := by
  simp only [corruptedOf, okChRX, okChRY, okChLX, okChLY, okSwL, okSwR, hRX, hRY, hLX, hLY, hL, hR]

end Sys2Proof.Machine

namespace Sys2Proof.Proofs

open Machine

/-- Settles O16: after any `LOAD` the buffer holds the operand, every read of `FB` completes (`exec_completes_of_readsFb`), and `res` is not among the
fields that the verdict depends on (`corruptedOf_congr`). -/
theorem noFrameIsIllegal : Obligations.NoFrameIsIllegal := by
  constructor
  · intro b s
    have hfb : (s.loadFb b).produceNothing.fb = some b := by simp
    exact ⟨_, exec_load b s, hfb, fun i hi => exec_completes_of_readsFb hi _, _, exec_extRes_of_fb hfb, State.produce_result _ _⟩
  · intro f r
    exact corruptedOf_congr rfl rfl rfl rfl rfl rfl

end Sys2Proof.Proofs
end

section
/-! PROOFS. The slices of a frame buffer's vector as formulas of its bytes (30_encoding.md R33; 20_memory.md R20): first for a slice at any place,
within one, two or three bytes, then field by field. -/

namespace Sys2Proof

theorem byteAt_lt (b : FrameBuffer) (j : Fin 18) : byteAt b j < 2 ^ 8 := b[j].isLt

/-- A byte of the buffer holds the eight frame bits from `8j` on, and no bit above them (R20). -/
theorem byteAt_testBit (b : FrameBuffer) (j : Fin 18) (i : Nat) :
    (byteAt b j).testBit i = (decide (i < 8) && (frameBits b).getLsbD (8 * j + i)) := by
  by_cases hi : i < 8
  · have hdiv : (8 * (j : Nat) + i) / 8 = j := by omega
    have hmod : (8 * (j : Nat) + i) % 8 = i := by omega
    rw [frameBits_getLsbD b _ (by omega)]
    simp [byteAt, hi, hdiv, hmod, BitVec.getLsbD]
  · have hlt : byteAt b j < 2 ^ i := (byteAt_lt b j).trans_le (Nat.pow_le_pow_right (by decide) (by omega))
    simp [hi, Nat.testBit_lt_two_pow hlt]

/-- A byte shifted right by `k` holds the frame bits from `8j + k` on, to the end of the byte. -/
theorem byteAt_shiftRight_testBit (b : FrameBuffer) (j : Fin 18) (k i : Nat) :
    (byteAt b j >>> k).testBit i = (decide (k + i < 8) && (frameBits b).getLsbD (8 * j + k + i)) := by
  rw [Nat.testBit_shiftRight, byteAt_testBit, Nat.add_assoc]

/-- A byte shifted left to its place in a slice that starts at frame bit `a`, `p` bits before the byte, holds eight of the slice's bits. -/
theorem byteAt_shiftLeft_testBit (b : FrameBuffer) (j : Fin 18) {a p : Nat} (hp : 8 * j = a + p) (i : Nat) :
    (byteAt b j <<< p).testBit i = (decide (p ≤ i ∧ i < p + 8) && (frameBits b).getLsbD (a + i)) := by
  rw [Nat.testBit_shiftLeft, byteAt_testBit]
  by_cases hi : p ≤ i
  · have hpos : 8 * (j : Nat) + (i - p) = a + i := by omega
    have hlt : i - p < 8 ↔ i < p + 8 := by omega
    simp only [hi, hpos, hlt, decide_true, true_and, Bool.true_and]
  · simp [hi]

/-- A word is the low `n` bits of any number that has the word's bits below `n`. -/
theorem toNat_eq_and_mask {n : Nat} {v : BitVec n} {u : Nat} (h : ∀ i < n, v.getLsbD i = u.testBit i) :
    v.toNat = u &&& (2 ^ n - 1) := by
  apply Nat.eq_of_testBit_eq
  intro i
  rw [Nat.testBit_and, Nat.testBit_two_pow_sub_one, BitVec.testBit_toNat]
  by_cases hi : i < n
  · rw [h i hi]
    simp [hi]
  · simp [hi, BitVec.getLsbD_of_ge v i (by omega)]

/-- A slice within byte `j`, from its bit `k` on. -/
theorem slice_toNat_of_one_byte (b : FrameBuffer) (j : Fin 18) {k n : Nat} (h : k + n ≤ 8) :
    ((frameBits b).extractLsb' (8 * j + k) n).toNat = (byteAt b j >>> k) &&& (2 ^ n - 1) := by
  refine toNat_eq_and_mask fun i hi => ?_
  have hin : k + i < 8 := by omega
  rw [BitVec.getLsbD_extractLsb', byteAt_shiftRight_testBit]
  simp only [hi, hin]

/-- A slice within bytes `j` and `j + 1`, from bit `k` of the first on: each of its bits lies in one of the two. -/
theorem slice_toNat_of_two_bytes (b : FrameBuffer) (j : Fin 17) {k n : Nat} (hk : k ≤ 8) (h : k + n ≤ 16) :
    ((frameBits b).extractLsb' (8 * j + k) n).toNat =
      ((byteAt b j.castSucc >>> k) ||| (byteAt b j.succ <<< (8 - k))) &&& (2 ^ n - 1) := by
  refine toNat_eq_and_mask fun i hi => ?_
  have hplace : 8 * (j.succ : Nat) = 8 * j.castSucc + k + (8 - k) := by simp; omega
  have hin : k + i < 8 ∨ (8 - k ≤ i ∧ i < 8 - k + 8) := by omega
  rw [BitVec.getLsbD_extractLsb', Nat.testBit_or, byteAt_shiftRight_testBit, byteAt_shiftLeft_testBit b _ hplace,
    ← Bool.and_or_distrib_right, ← Bool.decide_or]
  simp only [hi, hin, Fin.val_castSucc]

/-- A slice within bytes `j`, `j + 1` and `j + 2`, from bit `k` of the first on: each of its bits lies in one of the three. -/
theorem slice_toNat_of_three_bytes (b : FrameBuffer) (j : Fin 16) {k n : Nat} (hk : k ≤ 8) (h : k + n ≤ 24) :
    ((frameBits b).extractLsb' (8 * j + k) n).toNat =
      ((byteAt b j.castSucc.castSucc >>> k) ||| (byteAt b j.castSucc.succ <<< (8 - k)) ||| (byteAt b j.succ.succ <<< (16 - k)))
        &&& (2 ^ n - 1) := by
  refine toNat_eq_and_mask fun i hi => ?_
  have hplace₁ : 8 * (j.castSucc.succ : Nat) = 8 * j.castSucc.castSucc + k + (8 - k) := by simp; omega
  have hplace₂ : 8 * (j.succ.succ : Nat) = 8 * j.castSucc.castSucc + k + (16 - k) := by simp; omega
  have hin : (k + i < 8 ∨ (8 - k ≤ i ∧ i < 8 - k + 8)) ∨ (16 - k ≤ i ∧ i < 16 - k + 8) := by omega
  rw [BitVec.getLsbD_extractLsb', Nat.testBit_or, Nat.testBit_or, byteAt_shiftRight_testBit, byteAt_shiftLeft_testBit b _ hplace₁,
    byteAt_shiftLeft_testBit b _ hplace₂, ← Bool.and_or_distrib_right, ← Bool.and_or_distrib_right, ← Bool.decide_or, ← Bool.decide_or]
  simp only [hi, hin, Fin.val_castSucc]

/-- The slice of byte `j` is that byte. -/
theorem slice_toNat_of_byte (b : FrameBuffer) (j : Fin 18) : ((frameBits b).extractLsb' (8 * j) 8).toNat = byteAt b j :=
  (slice_toNat_of_one_byte b j (k := 0) (n := 8) (by decide)).trans (Nat.and_two_pow_sub_one_of_lt_two_pow (byteAt_lt b j))

/-- The slice of bytes `j` and `j + 1` is the two bytes, low byte first. -/
theorem slice_toNat_of_word (b : FrameBuffer) (j : Fin 17) :
    ((frameBits b).extractLsb' (8 * j) 16).toNat = byteAt b j.castSucc ||| (byteAt b j.succ <<< 8) := by
  have hhi : byteAt b j.succ < 2 ^ 8 := byteAt_lt b j.succ
  have hlo : byteAt b j.castSucc < 2 ^ 8 := byteAt_lt b j.castSucc
  have hlt : byteAt b j.castSucc ||| (byteAt b j.succ <<< 8) < 2 ^ 16 := by
    rw [or_shiftLeft_eq_add hlo]
    omega
  exact (slice_toNat_of_two_bytes b j (k := 0) (n := 16) (by decide) (by decide)).trans
    (Nat.and_two_pow_sub_one_of_lt_two_pow hlt)

namespace Machine

theorem sliceChRX_toNat (b : FrameBuffer) :
    (sliceChRX (frameBits b)).toNat = (byteAt b 0 ||| (byteAt b 1 <<< 8)) &&& 0x7FF :=
  slice_toNat_of_two_bytes b 0 (k := 0) (n := 11) (by decide) (by decide)

theorem sliceChRY_toNat (b : FrameBuffer) :
    (sliceChRY (frameBits b)).toNat = ((byteAt b 1 >>> 3) ||| (byteAt b 2 <<< 5)) &&& 0x7FF :=
  slice_toNat_of_two_bytes b 1 (k := 3) (n := 11) (by decide) (by decide)

theorem sliceChLX_toNat (b : FrameBuffer) :
    (sliceChLX (frameBits b)).toNat = ((byteAt b 2 >>> 6) ||| (byteAt b 3 <<< 2) ||| (byteAt b 4 <<< 10)) &&& 0x7FF :=
  slice_toNat_of_three_bytes b 2 (k := 6) (n := 11) (by decide) (by decide)

theorem sliceChLY_toNat (b : FrameBuffer) :
    (sliceChLY (frameBits b)).toNat = ((byteAt b 4 >>> 1) ||| (byteAt b 5 <<< 7)) &&& 0x7FF :=
  slice_toNat_of_two_bytes b 4 (k := 1) (n := 11) (by decide) (by decide)

theorem sliceSwA_toNat (b : FrameBuffer) : (sliceSwA (frameBits b)).toNat = (byteAt b 5 >>> 4) &&& 3 :=
  slice_toNat_of_one_byte b 5 (k := 4) (n := 2) (by decide)

theorem sliceSwB_toNat (b : FrameBuffer) : (sliceSwB (frameBits b)).toNat = (byteAt b 5 >>> 6) &&& 3 :=
  slice_toNat_of_one_byte b 5 (k := 6) (n := 2) (by decide)

theorem slicePressL_toNat (b : FrameBuffer) : (slicePressL (frameBits b)).toNat = byteAt b 12 :=
  slice_toNat_of_byte b 12

theorem slicePressR_toNat (b : FrameBuffer) : (slicePressR (frameBits b)).toNat = byteAt b 13 :=
  slice_toNat_of_byte b 13

theorem sliceKey_toNat (b : FrameBuffer) : (sliceKey (frameBits b)).toNat = byteAt b 14 ||| (byteAt b 15 <<< 8) :=
  slice_toNat_of_word b 14

theorem sliceRes_toNat (b : FrameBuffer) : (sliceRes (frameBits b)).toNat = byteAt b 16 ||| (byteAt b 17 <<< 8) :=
  slice_toNat_of_word b 16

end Machine

end Sys2Proof
end

section
/-! PROOFS. The frame decoder's operations on a frame (40_frame_decode.md R40 to R46, R50 to R54). -/

namespace Sys2Proof.Machine

/-- With a frame in `FB`, an operation that reads it completes with its function's value on the frame vector, and only `result` changes. -/
theorem exec_produces_of_fb {i : Instr} {g : FrameBits → Result} {s : State} {b : FrameBuffer} (hi : exec i s = readFb g s)
    (h : s.fb = some b) : exec i s = .next { s with result := some (g (frameBits b)) } :=
  hi.trans (readFb_of_fb h g)

/-! ## The switch mapping -/

/-- `MAP.sw` gives `sw_l` the lower pair when `SW_L_FIRST` is true and the upper pair when it is false, and `sw_r` the other (R46). -/
theorem mapSwitches_spec (swLFirst : Bool) (swA swB : BitVec 2) :
    if swLFirst then (mapSwitches swLFirst swA swB).1 = swA ∧ (mapSwitches swLFirst swA swB).2 = swB
    else (mapSwitches swLFirst swA swB).1 = swB ∧ (mapSwitches swLFirst swA swB).2 = swA := by
  cases swLFirst with
  | false => simp [mapSwitches]
  | true => simp [mapSwitches]

/-- The other value of `SW_L_FIRST` exchanges the two switches of the frame and nothing else (R46). -/
theorem decodeFrame_false (w : FrameBits) :
    decodeFrame false w =
      { decodeFrame true w with swL := (decodeFrame true w).swR, swR := (decodeFrame true w).swL } := rfl

/-- The verdict treats the two switches alike (R66). -/
theorem corruptedOf_exchange_switches (f : Frame) : corruptedOf { f with swL := f.swR, swR := f.swL } = corruptedOf f := by
  simp only [corruptedOf, okChRX, okChRY, okChLX, okChLY, okSwL, okSwR]
  rw [Bool.and_right_comm]

/-! ## The signed value -/

/-- The two's-complement value of a vector is the signed value of its unsigned one (00_scope.md R7). -/
theorem s16_eq_signed16 (v : BitVec 16) : s16 v = signed16 v.toNat := by
  have hmsb : v.msb = true ↔ 32768 ≤ v.toNat := by simp [BitVec.msb_eq_decide]
  by_cases h : v.toNat < 32768
  · simp [s16, signed16, hmsb, h]
  · simp [s16, signed16, hmsb, h, Nat.not_lt.mp h]

end Sys2Proof.Machine

namespace Sys2Proof.Proofs

open Machine

/-- Settles O4: each channel extraction is a read of `FB` (`exec_produces_of_fb`), and its slice is a two-byte or a three-byte formula. -/
theorem channelExtraction : Obligations.ChannelExtraction := by
  intro s b h
  refine ⟨?chRX, ?chRY, ?chLX, ?chLY⟩
  case chRX => exact ⟨_, exec_produces_of_fb (exec_extChRX s) h, rfl, sliceChRX_toNat b⟩
  case chRY => exact ⟨_, exec_produces_of_fb (exec_extChRY s) h, rfl, sliceChRY_toNat b⟩
  case chLX => exact ⟨_, exec_produces_of_fb (exec_extChLX s) h, rfl, sliceChLX_toNat b⟩
  case chLY => exact ⟨_, exec_produces_of_fb (exec_extChLY s) h, rfl, sliceChLY_toNat b⟩

/-- Settles O5: each positional extraction is a read of `FB`, and its slice lies within byte 5. -/
theorem switchPairExtraction : Obligations.SwitchPairExtraction := by
  intro s b h
  refine ⟨?swA, ?swB⟩
  case swA => exact ⟨_, exec_produces_of_fb (exec_extSwA s) h, rfl, sliceSwA_toNat b⟩
  case swB => exact ⟨_, exec_produces_of_fb (exec_extSwB s) h, rfl, sliceSwB_toNat b⟩

/-- Settles O6: the mapping by either value of `SW_L_FIRST` is `mapSwitches_spec`; between the two values the frame exchanges its switches
(`decodeFrame_false`), which the verdict treats alike. -/
theorem switchMapping : Obligations.SwitchMapping := by
  refine ⟨?mapping, ?equalPairs, ?exchange⟩
  case mapping =>
    intro s b h
    exact ⟨_, _, exec_produces_of_fb (exec_mapSw s) h, mapSwitches_spec params.swLFirst _ _⟩
  case equalPairs => exact fun _ => rfl
  case exchange =>
    intro w
    refine ⟨decodeFrame_false w, rfl, rfl, ?_⟩
    rw [decodeFrame_false]
    exact corruptedOf_exchange_switches _

/-- Settles O8: each extraction is a read of `FB`, and its slice is one whole byte or two. -/
theorem flagKeyReservedExtraction : Obligations.FlagKeyReservedExtraction := by
  intro s b h
  refine ⟨?pressL, ?pressR, ?key, ?res⟩
  case pressL => exact ⟨_, exec_produces_of_fb (exec_extPressL s) h, rfl, slicePressL_toNat b⟩
  case pressR => exact ⟨_, exec_produces_of_fb (exec_extPressR s) h, rfl, slicePressR_toNat b⟩
  case key => exact ⟨_, exec_produces_of_fb (exec_extKey s) h, rfl, sliceKey_toNat b⟩
  case res => exact ⟨_, exec_produces_of_fb (exec_extRes s) h, rfl, sliceRes_toNat b⟩

/-- Settles O10: `DECODE` is a read of `FB`; the switches of its record are `mapSwitches_spec`, the deltas `s16_eq_signed16`, and every other field is
its slice by definition. -/
theorem decodeIsTotal : Obligations.DecodeIsTotal := by
  constructor
  · intro s b h
    exact ⟨_, exec_produces_of_fb (exec_decode s) h, rfl⟩
  · intro o w
    exact ⟨rfl, rfl, rfl, rfl, mapSwitches_spec o _ _, s16_eq_signed16 _, s16_eq_signed16 _, s16_eq_signed16 _, rfl, rfl, rfl, rfl⟩

end Sys2Proof.Proofs
end

section
/-! PROOFS. The validator (41_validator.md R59 to R66): its verdict by its six terms and by the six checked fields, and its operations on a frame. -/

namespace Sys2Proof.Machine

/-! ## The terms -/

/-- The channel comparator fails below the window and above it (R60). -/
theorem inWindow_eq_false_iff (v : BitVec 11) : inWindow v = false ↔ v.toNat < 364 ∨ 1684 < v.toNat := by
  rw [← Bool.not_eq_true, inWindow_iff]
  omega

/-- The invalid switch value (R64). -/
theorem switchPresent_zero : switchPresent 0 = false := rfl

/-- The decoded `sw_l` is the pair that `SW_L_FIRST` names for it (R46, R64). -/
theorem decodeFrame_swL (swLFirst : Bool) (w : FrameBits) :
    (decodeFrame swLFirst w).swL = if swLFirst then sliceSwA w else sliceSwB w := by
  cases swLFirst with
  | false => rfl
  | true => rfl

/-- The decoded `sw_r` is the other pair (R46, R65). -/
theorem decodeFrame_swR (swLFirst : Bool) (w : FrameBits) :
    (decodeFrame swLFirst w).swR = if swLFirst then sliceSwB w else sliceSwA w := by
  cases swLFirst with
  | false => rfl
  | true => rfl

theorem okSwL_decodeFrame_iff (swLFirst : Bool) (w : FrameBits) :
    okSwL (decodeFrame swLFirst w) = true ↔ (if swLFirst then sliceSwA w else sliceSwB w) ≠ 0 := by
  rw [okSwL, switchPresent_iff, decodeFrame_swL]

theorem okSwR_decodeFrame_iff (swLFirst : Bool) (w : FrameBits) :
    okSwR (decodeFrame swLFirst w) = true ↔ (if swLFirst then sliceSwB w else sliceSwA w) ≠ 0 := by
  rw [okSwR, switchPresent_iff, decodeFrame_swR]

/-! ## The verdict -/

/-- A frame is rejected exactly when one of the six terms fails (R66). -/
theorem corruptedOf_eq_true_iff (f : Frame) :
    corruptedOf f = true ↔ okChRX f = false ∨ okChRY f = false ∨ okChLX f = false ∨ okChLY f = false ∨ okSwL f = false ∨ okSwR f = false := by
  simp only [corruptedOf, Bool.not_eq_true', Bool.and_eq_false_iff, or_assoc]

/-- A frame is accepted exactly when its four channels lie in the window and its two switches are not 0 (R59, R66). -/
theorem corruptedOf_eq_false_iff (f : Frame) :
    corruptedOf f = false ↔
      (364 ≤ f.chRX.toNat ∧ f.chRX.toNat ≤ 1684) ∧ (364 ≤ f.chRY.toNat ∧ f.chRY.toNat ≤ 1684) ∧
      (364 ≤ f.chLX.toNat ∧ f.chLX.toNat ≤ 1684) ∧ (364 ≤ f.chLY.toNat ∧ f.chLY.toNat ≤ 1684) ∧
      f.swL ≠ 0 ∧ f.swR ≠ 0 := by
  simp only [← inWindow_iff, ← switchPresent_iff]
  simp only [corruptedOf, okChRX, okChRY, okChLX, okChLY, okSwL, okSwR, Bool.not_eq_false', Bool.and_eq_true, and_assoc]

end Sys2Proof.Machine

namespace Sys2Proof.Proofs

open Machine

/-- Settles O18: each channel check is a read of `FB` (`exec_produces_of_fb`), and its term is the comparator on the channel's slice (`inWindow_iff`). -/
theorem channelChecks : Obligations.ChannelChecks := by
  intro s b h
  refine ⟨?chRX, ?chRY, ?chLX, ?chLY⟩
  case chRX => exact ⟨_, exec_produces_of_fb (exec_chkChRX s) h, inWindow_iff _⟩
  case chRY => exact ⟨_, exec_produces_of_fb (exec_chkChRY s) h, inWindow_iff _⟩
  case chLX => exact ⟨_, exec_produces_of_fb (exec_chkChLX s) h, inWindow_iff _⟩
  case chLY => exact ⟨_, exec_produces_of_fb (exec_chkChLY s) h, inWindow_iff _⟩

/-- Settles O19: each switch check is a read of `FB`, and its term tests the pair that `SW_L_FIRST` gives the switch, for either value. -/
theorem switchChecks : Obligations.SwitchChecks := by
  intro s b h
  constructor
  · exact ⟨_, exec_produces_of_fb (exec_chkSwL s) h, okSwL_decodeFrame_iff _ _⟩
  · exact ⟨_, exec_produces_of_fb (exec_chkSwR s) h, okSwR_decodeFrame_iff _ _⟩

/-- Settles O20: `VALID` is a read of `FB` that produces the output `corrupted` (`corrupted_of_fb`), and `corruptedOf_eq_false_iff` is its meaning. -/
theorem verdictIsTheConjunction : Obligations.VerdictIsTheConjunction := by
  intro s b h
  exact ⟨_, exec_produces_of_fb (exec_valid s) h, corrupted_of_fb h, corruptedOf_eq_false_iff _⟩

/-- Settles O22: (a) is one direction of `corruptedOf_eq_false_iff`; for (b) the violated field makes its own term fail, which is enough by
`corruptedOf_eq_true_iff`. -/
theorem validatorProperties : Obligations.ValidatorProperties := by
  intro f
  refine ⟨?allHold, ?channelViolated, ?swLViolated, ?swRViolated⟩
  case allHold =>
    intro hRX hRY hLX hLY hL hR
    exact (corruptedOf_eq_false_iff f).mpr ⟨hRX, hRY, hLX, hLY, hL, hR⟩
  case channelViolated =>
    intro v hv
    have hout : inWindow v = false := (inWindow_eq_false_iff v).mpr hv
    refine ⟨?chRX, ?chRY, ?chLX, ?chLY⟩
    case chRX => exact (corruptedOf_eq_true_iff _).mpr (.inl hout)
    case chRY => exact (corruptedOf_eq_true_iff _).mpr (.inr (.inl hout))
    case chLX => exact (corruptedOf_eq_true_iff _).mpr (.inr (.inr (.inl hout)))
    case chLY => exact (corruptedOf_eq_true_iff _).mpr (.inr (.inr (.inr (.inl hout))))
  case swLViolated => exact (corruptedOf_eq_true_iff _).mpr (.inr (.inr (.inr (.inr (.inl switchPresent_zero)))))
  case swRViolated => exact (corruptedOf_eq_true_iff _).mpr (.inr (.inr (.inr (.inr (.inr switchPresent_zero)))))

end Sys2Proof.Proofs
end

section
/-! PROOFS. The block-level operation `LOAD` (42_block_operations.md R71). -/

namespace Sys2Proof.Machine

/-- All that `LOAD` writes is fixed by its operand, so a second `LOAD` of the same bytes writes what is there already (R71). -/
theorem State.loadFb_produceNothing_again (s : State) (b : FrameBuffer) :
    ((s.loadFb b).produceNothing.loadFb b).produceNothing = (s.loadFb b).produceNothing := rfl

end Sys2Proof.Machine

namespace Sys2Proof.Proofs

open Machine

/-- Settles O25: `LOAD` answers in every state (`exec_load`), the output `corrupted` is then the verdict on the new bytes (`corrupted_of_fb`), and a
second `LOAD` of them changes nothing (`State.loadFb_produceNothing_again`). -/
theorem loadReplacesTheBuffer : Obligations.LoadReplacesTheBuffer := by
  intro s b
  have hfb : (s.loadFb b).produceNothing.fb = some b := by simp
  have hagain : exec (.load b) (s.loadFb b).produceNothing = .next (s.loadFb b).produceNothing := by
    rw [exec_load, State.loadFb_produceNothing_again]
  exact ⟨_, exec_load b s, rfl, corrupted_of_fb hfb, hagain⟩

end Sys2Proof.Proofs
end

section
/-! PROOFS. The modifier codes of the key-code space (43_environment_contract.md R92, R93). -/

namespace Sys2Proof.Proofs

open Machine

/-- The control range stands one key-code space above the shift range. -/
theorem ctrlWith_eq_shiftWith_add (k : Int) : ctrlWith k = shiftWith k + nKeycodes := by
  unfold ctrlWith shiftWith
  ring

/-- The shift-control range stands one key-code space above the control range. -/
theorem shiftCtrlWith_eq_ctrlWith_add (k : Int) : shiftCtrlWith k = ctrlWith k + nKeycodes := by
  unfold shiftCtrlWith ctrlWith
  ring

/-- Settles O43: the three modifier codes of `k` are equally spaced, `N` apart (`ctrlWith_eq_shiftWith_add`, `shiftCtrlWith_eq_ctrlWith_add`), and
the four differences follow for any `N`. -/
theorem modifierCodesAreLinear : Obligations.ModifierCodesAreLinear := by
  intro k
  have hctrl := ctrlWith_eq_shiftWith_add k
  have hshiftCtrl := shiftCtrlWith_eq_ctrlWith_add k
  refine ⟨?shiftLessCtrl, ?shiftCtrlLessShift, ?shiftCtrlLessCtrl, ?ctrlLessShift⟩
  case shiftLessCtrl => rw [hctrl]; ring
  case shiftCtrlLessShift => rw [hshiftCtrl, hctrl]; ring
  case shiftCtrlLessCtrl => rw [hshiftCtrl]; ring
  case ctrlLessShift => rw [hctrl]; ring

end Sys2Proof.Proofs
end

section
/-! PROOFS. The frame vector and its bytes (20_memory.md R20), field by field (30_encoding.md R33, 40_frame_decode.md R47 to R49, R58). -/

namespace Sys2Proof

/-- Byte `j` of the buffer of a frame vector is `F[8j+7:8j]` (R20, R55). -/
theorem frameBytes_getElem (w : FrameBits) (j : Nat) (h : j < 18) : (frameBytes w)[j] = w.extractLsb' (8 * j) 8 := by
  simp [frameBytes]

/-- Frame bit `8j + k` is bit `k` of byte `j` (R20). -/
theorem frameBits_getLsbD_of_byte (b : FrameBuffer) {j k : Nat} (hj : j < 18) (hk : k < 8) :
    (frameBits b).getLsbD (8 * j + k) = b[j].getLsbD k := by
  have hdiv : (8 * j + k) / 8 = j := by omega
  have hmod : (8 * j + k) % 8 = k := by omega
  rw [frameBits_getLsbD b _ (by omega)]
  simp only [hdiv, hmod]

/-- The frame vector forgets nothing of the buffer. -/
theorem frameBytes_frameBits (b : FrameBuffer) : frameBytes (frameBits b) = b := by
  ext j hj k hk
  rw [frameBytes_getElem _ j hj, BitVec.getElem_extractLsb', frameBits_getLsbD_of_byte b hj hk, BitVec.getLsbD_eq_getElem hk]

/-- The bytes of a frame vector make it up again. -/
theorem frameBits_frameBytes (w : FrameBits) : frameBits (frameBytes w) = w := by
  apply BitVec.eq_of_getLsbD_eq
  intro i hi
  have hmod : i % 8 < 8 := Nat.mod_lt i (by decide)
  rw [frameBits_getLsbD _ i hi, frameBytes_getElem, BitVec.getLsbD_extractLsb', Nat.div_add_mod]
  simp [hmod]

theorem frameBits_injective : Function.Injective frameBits :=
  Function.LeftInverse.injective frameBytes_frameBits

/-- The little-endian value of `n` bytes as a sum (R20). -/
theorem littleEndian_ofFn {n : Nat} (v : Fin n → Byte) :
    littleEndian (List.ofFn v) = ∑ j : Fin n, (v j).toNat * 256 ^ (j : Nat) := by
  induction n with
  | zero => rfl
  | succ n ih =>
    rw [List.ofFn_succ, littleEndian, ih, Fin.sum_univ_succ, Finset.mul_sum]
    simp only [Fin.val_zero, pow_zero, mul_one, Fin.val_succ, pow_succ]
    congr 1
    exact Finset.sum_congr rfl fun j _ => by ring

theorem toList_eq_ofFn (b : FrameBuffer) : b.toList = List.ofFn fun j : Fin 18 => b[j] := by
  refine List.ext_getElem (by simp) fun j _ _ => ?_
  rw [List.getElem_ofFn, Vector.getElem_toList]
  rfl

namespace Machine

theorem sliceX_toNat (b : FrameBuffer) : (sliceX (frameBits b)).toNat = byteAt b 6 ||| (byteAt b 7 <<< 8) :=
  slice_toNat_of_word b 6

theorem sliceY_toNat (b : FrameBuffer) : (sliceY (frameBits b)).toNat = byteAt b 8 ||| (byteAt b 9 <<< 8) :=
  slice_toNat_of_word b 8

theorem sliceZ_toNat (b : FrameBuffer) : (sliceZ (frameBits b)).toNat = byteAt b 10 ||| (byteAt b 11 <<< 8) :=
  slice_toNat_of_word b 10

theorem s16_sliceX (b : FrameBuffer) : s16 (sliceX (frameBits b)) = signed16 (byteAt b 6 ||| (byteAt b 7 <<< 8)) := by
  rw [s16_eq_signed16, sliceX_toNat]

theorem s16_sliceY (b : FrameBuffer) : s16 (sliceY (frameBits b)) = signed16 (byteAt b 8 ||| (byteAt b 9 <<< 8)) := by
  rw [s16_eq_signed16, sliceY_toNat]

theorem s16_sliceZ (b : FrameBuffer) : s16 (sliceZ (frameBits b)) = signed16 (byteAt b 10 ||| (byteAt b 11 <<< 8)) := by
  rw [s16_eq_signed16, sliceZ_toNat]

end Machine

end Sys2Proof

namespace Sys2Proof.Proofs

open Machine

/-- Settles O2: bit `8j + k` lies in byte `j` at place `k` (`frameBits_getLsbD_of_byte`), and the vector's value is the little-endian value of the bytes, which is
the sum (`littleEndian_ofFn`). -/
theorem frameVectorIsLittleEndian : Obligations.FrameVectorIsLittleEndian := by
  intro b
  constructor
  · exact fun j k => frameBits_getLsbD_of_byte b j.isLt k.isLt
  · rw [frameBits_toNat, toList_eq_ofFn, littleEndian_ofFn]

/-- Settles O3: each field is a slice, whose byte formula is the slice's `toNat` lemma; the deltas are the signed values of theirs. -/
theorem fieldsAreByteFormulas : Obligations.FieldsAreByteFormulas := by
  intro o b
  exact ⟨sliceChRX_toNat b, sliceChRY_toNat b, sliceChLX_toNat b, sliceChLY_toNat b, sliceSwA_toNat b, sliceSwB_toNat b,
    s16_sliceX b, s16_sliceY b, s16_sliceZ b, slicePressL_toNat b, slicePressR_toNat b, sliceKey_toNat b, sliceRes_toNat b⟩

/-- Settles O7: each extraction is a read of `FB`; its value is the signed value of its slice (`s16_eq_signed16`), which is that of its two bytes. -/
theorem motionExtraction : Obligations.MotionExtraction := by
  intro s b h
  refine ⟨?x, ?y, ?z⟩
  case x => exact ⟨_, exec_produces_of_fb (exec_extX s) h, s16_eq_signed16 _, s16_sliceX b⟩
  case y => exact ⟨_, exec_produces_of_fb (exec_extY s) h, s16_eq_signed16 _, s16_sliceY b⟩
  case z => exact ⟨_, exec_produces_of_fb (exec_extZ s) h, s16_eq_signed16 _, s16_sliceZ b⟩

/-- Settles O9: the key mask is the slice from frame bit 112 on, and bit `112 + i` lies in byte 14 or in byte 15 (`frameBits_getLsbD_of_byte`). -/
theorem keyBitPositions : Obligations.KeyBitPositions := by
  intro o b i hi
  have hbit : (decodeFrame o (frameBits b)).key.getLsbD i = (frameBits b).getLsbD (112 + i) := by
    simp [decodeFrame, sliceKey, hi]
  refine ⟨hbit, hbit.trans ?_⟩
  by_cases hlow : i < 8
  · rw [if_pos hlow]
    exact frameBits_getLsbD_of_byte b (j := 14) (by decide) hlow
  · have hplace : 112 + i = 8 * 15 + (i - 8) := by omega
    rw [if_neg hlow, hplace]
    exact frameBits_getLsbD_of_byte b (by decide) (by omega)

end Sys2Proof.Proofs
end

section
/-! PROOFS. `DECODE` and `ENCODE` as inverses of each other (40_frame_decode.md R55, R56). -/

namespace Sys2Proof

/-! ## Agreement of two frame vectors on a bit range -/

/-- Two frame vectors agree on a range exactly when their slices are equal. -/
theorem agreeOn_iff_slice_eq {hi lo : Nat} (h : lo ≤ hi) {w w' : FrameBits} :
    agreeOn ⟨hi, lo⟩ w w' ↔ w.extractLsb hi lo = w'.extractLsb hi lo := by
  constructor
  · intro ha
    apply BitVec.eq_of_getLsbD_eq
    intro i hi'
    rw [BitVec.getLsbD_extractLsb, BitVec.getLsbD_extractLsb, ha (lo + i) (by simp) (by simp; omega)]
  · intro he k hlo hhi
    have hk : (w.extractLsb hi lo).getLsbD (k - lo) = (w'.extractLsb hi lo).getLsbD (k - lo) := by rw [he]
    have hin : k - lo ≤ hi - lo := by simp at hhi; omega
    have hplace : lo + (k - lo) = k := Nat.add_sub_cancel' hlo
    simpa [BitVec.getLsbD_extractLsb, hin, hplace] using hk

/-- Agreement on a range is agreement on the ranges within it. -/
theorem agreeOn.mono {r r' : BitRange} {w w' : FrameBits} (h : agreeOn r w w') (hlo : r.lo ≤ r'.lo) (hhi : r'.hi ≤ r.hi) :
    agreeOn r' w w' :=
  fun k hk hk' => h k (hlo.trans hk) (hk'.trans hhi)

/-- Agreement on two adjacent ranges is agreement on the range they make up. -/
theorem agreeOn.join {hi mid lo : Nat} {w w' : FrameBits} (hupper : agreeOn ⟨hi, mid + 1⟩ w w') (hlower : agreeOn ⟨mid, lo⟩ w w') :
    agreeOn ⟨hi, lo⟩ w w' := by
  intro k hlo hhi
  by_cases hk : k ≤ mid
  · exact hlower k hlo hk
  · exact hupper k (Nat.lt_of_not_le hk) hhi

/-- Frame vectors that agree on every bit are equal. -/
theorem eq_of_agreeOn_all {w w' : FrameBits} (h : agreeOn ⟨143, 0⟩ w w') : w = w' :=
  BitVec.eq_of_getLsbD_eq fun i hi => h i (Nat.zero_le i) (Nat.le_of_lt_succ hi)

namespace Machine

/-! ## The signed value and the switch mapping -/

theorem s16_eq_toInt (v : BitVec 16) : s16 v = v.toInt :=
  (BitVec.toInt_eq_msb_cond v).symm

theorem s16_injective : Function.Injective s16 := by
  intro v v' h
  rwa [s16_eq_toInt, s16_eq_toInt, BitVec.toInt_inj] at h

/-- A delta in range is the value of its 16-bit pattern (R55, decision D4). -/
theorem s16_axisPattern {v : Int} (h : axisInRange v = true) : s16 (axisPattern v) = v := by
  simp only [axisInRange, Bool.and_eq_true, decide_eq_true_iff] at h
  obtain ⟨hlow, hhigh⟩ := h
  rw [s16_eq_toInt, axisPattern]
  exact BitVec.toInt_ofInt_eq_self (by decide) hlow (Int.lt_add_one_of_le hhigh)

/-- The pattern of a delta is the delta mod 65536 (R55). -/
theorem axisPattern_toNat (v : Int) : ((axisPattern v).toNat : Int) = v % 65536 := by
  rw [axisPattern, BitVec.toNat_ofInt]
  omega

/-- The mapping gives each switch back from the place `ENCODE` puts it (R46, R55). -/
theorem mapSwitches_places (swLFirst : Bool) (l r : BitVec 2) :
    mapSwitches swLFirst (if swLFirst then l else r) (if swLFirst then r else l) = (l, r) := by
  cases swLFirst with
  | false => rfl
  | true => rfl

/-- The two switches determine the two pairs. -/
theorem mapSwitches_injective {swLFirst : Bool} {swA swB swA' swB' : BitVec 2}
    (h : mapSwitches swLFirst swA swB = mapSwitches swLFirst swA' swB') : swA = swA' ∧ swB = swB' := by
  cases swLFirst with
  | false => simpa [mapSwitches, and_comm] using h
  | true => simpa [mapSwitches] using h

theorem inRange_iff (f : Frame) :
    f.inRange = true ↔ axisInRange f.x = true ∧ axisInRange f.y = true ∧ axisInRange f.z = true := by
  simp [Frame.inRange, and_assoc]

/-! ## The slices of an encoded frame: the fields of `encodeFrame` below the slice are dropped one by one, and those above it at once -/

theorem sliceChRX_encodeFrame (o : Bool) (f : Frame) : sliceChRX (encodeFrame o f) = f.chRX :=
  BitVec.extractLsb'_append_eq_right

theorem sliceChRY_encodeFrame (o : Bool) (f : Frame) : sliceChRY (encodeFrame o f) = f.chRY := by
  refine (BitVec.extractLsb'_append_eq_of_le (by decide)).trans ?_
  exact BitVec.extractLsb'_append_eq_right

theorem sliceChLX_encodeFrame (o : Bool) (f : Frame) : sliceChLX (encodeFrame o f) = f.chLX := by
  iterate 2 refine (BitVec.extractLsb'_append_eq_of_le (by decide)).trans ?_
  exact BitVec.extractLsb'_append_eq_right

theorem sliceChLY_encodeFrame (o : Bool) (f : Frame) : sliceChLY (encodeFrame o f) = f.chLY := by
  iterate 3 refine (BitVec.extractLsb'_append_eq_of_le (by decide)).trans ?_
  exact BitVec.extractLsb'_append_eq_right

theorem sliceSwA_encodeFrame (o : Bool) (f : Frame) : sliceSwA (encodeFrame o f) = if o then f.swL else f.swR := by
  iterate 4 refine (BitVec.extractLsb'_append_eq_of_le (by decide)).trans ?_
  exact BitVec.extractLsb'_append_eq_right

theorem sliceSwB_encodeFrame (o : Bool) (f : Frame) : sliceSwB (encodeFrame o f) = if o then f.swR else f.swL := by
  iterate 5 refine (BitVec.extractLsb'_append_eq_of_le (by decide)).trans ?_
  exact BitVec.extractLsb'_append_eq_right

theorem sliceX_encodeFrame (o : Bool) (f : Frame) : sliceX (encodeFrame o f) = axisPattern f.x := by
  iterate 6 refine (BitVec.extractLsb'_append_eq_of_le (by decide)).trans ?_
  exact BitVec.extractLsb'_append_eq_right

theorem sliceY_encodeFrame (o : Bool) (f : Frame) : sliceY (encodeFrame o f) = axisPattern f.y := by
  iterate 7 refine (BitVec.extractLsb'_append_eq_of_le (by decide)).trans ?_
  exact BitVec.extractLsb'_append_eq_right

theorem sliceZ_encodeFrame (o : Bool) (f : Frame) : sliceZ (encodeFrame o f) = axisPattern f.z := by
  iterate 8 refine (BitVec.extractLsb'_append_eq_of_le (by decide)).trans ?_
  exact BitVec.extractLsb'_append_eq_right

theorem slicePressL_encodeFrame (o : Bool) (f : Frame) : slicePressL (encodeFrame o f) = f.pressL := by
  iterate 9 refine (BitVec.extractLsb'_append_eq_of_le (by decide)).trans ?_
  exact BitVec.extractLsb'_append_eq_right

theorem slicePressR_encodeFrame (o : Bool) (f : Frame) : slicePressR (encodeFrame o f) = f.pressR := by
  iterate 10 refine (BitVec.extractLsb'_append_eq_of_le (by decide)).trans ?_
  exact BitVec.extractLsb'_append_eq_right

theorem sliceKey_encodeFrame (o : Bool) (f : Frame) : sliceKey (encodeFrame o f) = f.key := by
  iterate 11 refine (BitVec.extractLsb'_append_eq_of_le (by decide)).trans ?_
  exact BitVec.extractLsb'_append_eq_right

theorem sliceRes_encodeFrame (o : Bool) (f : Frame) : sliceRes (encodeFrame o f) = f.res := by
  iterate 12 refine (BitVec.extractLsb'_append_eq_of_le (by decide)).trans ?_
  exact BitVec.extractLsb'_eq_self

theorem sliceX_encodeFrame_toNat (o : Bool) (f : Frame) : ((sliceX (encodeFrame o f)).toNat : Int) = f.x % 65536 := by
  rw [sliceX_encodeFrame, axisPattern_toNat]

theorem sliceY_encodeFrame_toNat (o : Bool) (f : Frame) : ((sliceY (encodeFrame o f)).toNat : Int) = f.y % 65536 := by
  rw [sliceY_encodeFrame, axisPattern_toNat]

theorem sliceZ_encodeFrame_toNat (o : Bool) (f : Frame) : ((sliceZ (encodeFrame o f)).toNat : Int) = f.z % 65536 := by
  rw [sliceZ_encodeFrame, axisPattern_toNat]

/-! ## The two directions -/

/-- From fields to bits and back (R56). -/
theorem decodeFrame_encodeFrame (o : Bool) {f : Frame} (h : f.inRange = true) : decodeFrame o (encodeFrame o f) = f := by
  obtain ⟨hx, hy, hz⟩ := (inRange_iff f).mp h
  simp only [decodeFrame, sliceChRX_encodeFrame, sliceChRY_encodeFrame, sliceChLX_encodeFrame, sliceChLY_encodeFrame,
    sliceSwA_encodeFrame, sliceSwB_encodeFrame, mapSwitches_places, sliceX_encodeFrame, sliceY_encodeFrame, sliceZ_encodeFrame,
    s16_axisPattern hx, s16_axisPattern hy, s16_axisPattern hz, slicePressL_encodeFrame, slicePressR_encodeFrame,
    sliceKey_encodeFrame, sliceRes_encodeFrame]

/-- The thirteen fields determine the frame vector: each fixes its slice, and the slices make up all 144 bits (R32, R56). -/
theorem decodeFrame_injective (o : Bool) : Function.Injective (decodeFrame o) := by
  intro w w' h
  simp only [decodeFrame, Frame.mk.injEq] at h
  obtain ⟨hRX, hRY, hLX, hLY, hL, hR, hx, hy, hz, hpl, hpr, hkey, hres⟩ := h
  obtain ⟨hA, hB⟩ := mapSwitches_injective (Prod.ext hL hR)
  have aRX : agreeOn ⟨10, 0⟩ w w' := (agreeOn_iff_slice_eq (by decide)).mpr hRX
  have aRY : agreeOn ⟨21, 11⟩ w w' := (agreeOn_iff_slice_eq (by decide)).mpr hRY
  have aLX : agreeOn ⟨32, 22⟩ w w' := (agreeOn_iff_slice_eq (by decide)).mpr hLX
  have aLY : agreeOn ⟨43, 33⟩ w w' := (agreeOn_iff_slice_eq (by decide)).mpr hLY
  have aA : agreeOn ⟨45, 44⟩ w w' := (agreeOn_iff_slice_eq (by decide)).mpr hA
  have aB : agreeOn ⟨47, 46⟩ w w' := (agreeOn_iff_slice_eq (by decide)).mpr hB
  have aX : agreeOn ⟨63, 48⟩ w w' := (agreeOn_iff_slice_eq (by decide)).mpr (s16_injective hx)
  have aY : agreeOn ⟨79, 64⟩ w w' := (agreeOn_iff_slice_eq (by decide)).mpr (s16_injective hy)
  have aZ : agreeOn ⟨95, 80⟩ w w' := (agreeOn_iff_slice_eq (by decide)).mpr (s16_injective hz)
  have aPL : agreeOn ⟨103, 96⟩ w w' := (agreeOn_iff_slice_eq (by decide)).mpr hpl
  have aPR : agreeOn ⟨111, 104⟩ w w' := (agreeOn_iff_slice_eq (by decide)).mpr hpr
  have aKey : agreeOn ⟨127, 112⟩ w w' := (agreeOn_iff_slice_eq (by decide)).mpr hkey
  have aRes : agreeOn ⟨143, 128⟩ w w' := (agreeOn_iff_slice_eq (by decide)).mpr hres
  have channels := aLY.join (aLX.join (aRY.join aRX))
  have deltas := aZ.join (aY.join (aX.join (aB.join (aA.join channels))))
  exact eq_of_agreeOn_all (aRes.join (aKey.join (aPR.join (aPL.join deltas))))

/-- From bits to fields and back: both vectors have the same fields. -/
theorem encodeFrame_decodeFrame (o : Bool) (w : FrameBits) : encodeFrame o (decodeFrame o w) = w :=
  decodeFrame_injective o (decodeFrame_encodeFrame o (decodeFrame_inRange o w))

end Machine

end Sys2Proof

namespace Sys2Proof.Proofs

open Machine

/-- Settles O12: `decodeFrame_encodeFrame`, its converse by the injectivity of the decoder, and the bijection of bytes and bits; a frame in range
is the decoding of the bytes of its encoding. -/
theorem frameRoundTrip : Obligations.FrameRoundTrip := by
  intro o
  refine ⟨fun f hf => decodeFrame_encodeFrame o hf, encodeFrame_decodeFrame o, frameBytes_frameBits, frameBits_frameBytes, ?inj, ?image⟩
  case inj => exact fun b b' h => frameBits_injective (decodeFrame_injective o h)
  case image =>
    intro f
    constructor
    · intro hf
      exact ⟨frameBytes (encodeFrame o f), by rw [frameBits_frameBytes, decodeFrame_encodeFrame o hf]⟩
    · rintro ⟨b, rfl⟩
      exact decodeFrame_inRange o _

/-- Settles O11: on a frame in range `ENCODE` completes with `encodeFrame`, whose slices are the lemmas above. -/
theorem encodePacksEveryField : Obligations.EncodePacksEveryField := by
  intro s f hf
  exact ⟨_, exec_encode_of_inRange hf s, sliceChRX_encodeFrame _ f, sliceChRY_encodeFrame _ f, sliceChLX_encodeFrame _ f,
    sliceChLY_encodeFrame _ f, sliceSwA_encodeFrame _ f, sliceSwB_encodeFrame _ f, sliceX_encodeFrame_toNat _ f,
    sliceY_encodeFrame_toNat _ f, sliceZ_encodeFrame_toNat _ f, slicePressL_encodeFrame _ f, slicePressR_encodeFrame _ f,
    sliceKey_encodeFrame _ f, sliceRes_encodeFrame _ f, fun j => frameBytes_getElem _ j j.isLt⟩

end Sys2Proof.Proofs
end

section
/-! PROOFS. The wire frame as the one instruction word (30_encoding.md R30, R34, R38), and a program's next transaction (R37). -/

namespace Sys2Proof

/-- What the decoder reads: a wire frame, from the first 18 bytes (R30). -/
theorem decode_ok_iff {bs rest : List Byte} {i : Instr} :
    decode bs = .ok (i, rest) ↔ ∃ b : FrameBuffer, bs = b.toList ++ rest ∧ i = .frame (frameBits b) := by
  simp only [← Machine.takeFrame_some_iff]
  unfold decode
  cases takeFrame bs with
  | none => simp
  | some p =>
    obtain ⟨b, rest'⟩ := p
    simp only [Except.ok.injEq, Prod.mk.injEq, Option.some.injEq]
    constructor
    · rintro ⟨rfl, rfl⟩
      exact ⟨b, ⟨rfl, rfl⟩, rfl⟩
    · rintro ⟨b', ⟨rfl, rfl⟩, rfl⟩
      exact ⟨rfl, rfl⟩

/-- What the decoder rejects: fewer than 18 bytes (R71, U17). -/
theorem decode_error_iff {bs : List Byte} : (∃ e, decode bs = .error e) ↔ bs.length < 18 := by
  rw [← Machine.takeFrame_none_iff]
  unfold decode
  cases takeFrame bs with
  | none => simp
  | some p => simp

/-- Only the wire frame has an encoding, its bytes (R38). -/
theorem encode_some_iff {i : Instr} {bs : List Byte} : encode i = some bs ↔ ∃ w, i = .frame w ∧ bs = (frameBytes w).toList := by
  cases i with
  | frame w => simp [encode, eq_comm]
  | _ => simp [encode]

namespace Machine

/-- Bytes that are not exactly 18 are no instruction (U17). -/
theorem fetchTransaction_wire_of_length_ne {bs : List Byte} (h : bs.length ≠ 18) :
    fetchTransaction (.wire bs) = .error .notAFrame := by
  unfold fetchTransaction
  cases hd : decode bs with
  | error e => simp [hd]
  | ok p =>
    obtain ⟨i, rest⟩ := p
    cases rest with
    | nil =>
      obtain ⟨b, rfl, -⟩ := decode_ok_iff.mp hd
      simp at h
    | cons _ _ => simp [hd]

theorem step_program_refused {s : State} {t : Transaction} {rest : List Transaction} {r : Refusal}
    (h : s.worker = .program (t :: rest)) (hf : fetchTransaction t = .error r) : step s = .refused r := by
  simp [step, h, hf]

end Machine

end Sys2Proof

namespace Sys2Proof.Proofs

open Machine

/-- Settles O14: what the encoder writes and what the decoder reads is a buffer and its frame vector (`encode_some_iff`, `decode_ok_iff`), which
determine each other. -/
theorem wireFramesDecode : Obligations.WireFramesDecode := by
  refine ⟨?decodeOfEncode, ?encodeOfDecode, fun w => ⟨_, rfl⟩, fun bs => decode_error_iff⟩
  case decodeOfEncode =>
    intro i bs rest _ he
    obtain ⟨w, rfl, hbs⟩ := encode_some_iff.mp he
    rw [hbs]
    exact ⟨Vector.length_toList, decode_ok_iff.mpr ⟨frameBytes w, rfl, by rw [frameBits_frameBytes]⟩⟩
  case encodeOfDecode =>
    intro i bs rest hd
    obtain ⟨b, rfl, rfl⟩ := decode_ok_iff.mp hd
    exact ⟨b.toList, encode_some_iff.mpr ⟨_, rfl, by rw [frameBytes_frameBits]⟩, rfl, Vector.length_toList⟩

/-- Settles O15, by running the decoder on the four words. -/
theorem writtenWordsDecode : Obligations.WrittenWordsDecode :=
  ⟨rfl, rfl, rfl, rfl⟩

/-- Settles O17: a transaction of a program is fetched and performed (`step_program`) or refused (`step_program_refused`). -/
theorem stepRunsTheNextTransaction : Obligations.StepRunsTheNextTransaction := by
  refine ⟨?wire, ?op, ?notAFrame, fun s h => step_idle h⟩
  case wire => exact fun s bs i ts h hd => step_program h (fetchTransaction_wire_ok_iff.mpr hd)
  case op => exact fun s i ts h => step_program h rfl
  case notAFrame => exact fun s bs ts h hlen => step_program_refused h (fetchTransaction_wire_of_length_ne hlen)

end Sys2Proof.Proofs
end

section
/-! PROOFS. What an operation produces from a frame (30_encoding.md R34), the bits that it depends on (40_frame_decode.md R57), and what the
verdict does not depend on (41_validator.md R68, R69; 70_reset_and_hazards.md R115). -/

namespace Sys2Proof

open Machine

/-- What an operation that reads `FB` produces from the frame vector, for either switch order; `OBS`, which answers in its own way while `FB` is `undef`,
and the operations that do not read `FB` are left out. -/
def Instr.valueOn (swLFirst : Bool) (i : Instr) (w : FrameBits) : Result :=
  match i with
  | .extChRX => .channel (sliceChRX w)
  | .extChRY => .channel (sliceChRY w)
  | .extChLX => .channel (sliceChLX w)
  | .extChLY => .channel (sliceChLY w)
  | .extSwA => .switch (sliceSwA w)
  | .extSwB => .switch (sliceSwB w)
  | .extX => .delta (s16 (sliceX w))
  | .extY => .delta (s16 (sliceY w))
  | .extZ => .delta (s16 (sliceZ w))
  | .extPressL => .press (slicePressL w)
  | .extPressR => .press (slicePressR w)
  | .extKey => .mask (sliceKey w)
  | .extRes => .mask (sliceRes w)
  | .mapSw => .switches (mapSwitches swLFirst (sliceSwA w) (sliceSwB w)).1 (mapSwitches swLFirst (sliceSwA w) (sliceSwB w)).2
  | .decode => .frame (decodeFrame swLFirst w)
  | .chkChRX => .term (okChRX (decodeFrame swLFirst w))
  | .chkChRY => .term (okChRY (decodeFrame swLFirst w))
  | .chkChLX => .term (okChLX (decodeFrame swLFirst w))
  | .chkChLY => .term (okChLY (decodeFrame swLFirst w))
  | .chkSwL => .term (okSwL (decodeFrame swLFirst w))
  | .chkSwR => .term (okSwR (decodeFrame swLFirst w))
  | .valid => .verdict (corruptedOf (decodeFrame swLFirst w))
  | _ => .undef

/-- A proof for every operation: one for those that read `FB` (all but `OBS`), and one for each of the others. -/
theorem Instr.kindCases {motive : Instr → Prop} (reader : ∀ i : Instr, i.readsFb = true → i ≠ .obs → motive i) (obs : motive .obs)
    (frame : ∀ w, motive (.frame w)) (rst : motive .rst) (load : ∀ b, motive (.load b)) (encode : ∀ f, motive (.encode f)) (i : Instr) :
    motive i := by
  cases i with
  | frame w => exact frame w
  | rst => exact rst
  | load b => exact load b
  | encode f => exact encode f
  | obs => exact obs
  | _ => exact reader _ rfl nofun

/-- An operation that reads `FB` is the read of its value (R14, R40 to R66). -/
theorem exec_reader {i : Instr} (h : i.readsFb = true) (ho : i ≠ .obs) (s : State) :
    exec i s = readFb (i.valueOn params.swLFirst) s := by
  cases i with
  | frame w => simp [Instr.readsFb] at h
  | encode f => simp [Instr.readsFb] at h
  | rst => simp [Instr.readsFb] at h
  | load b => simp [Instr.readsFb] at h
  | obs => exact absurd rfl ho
  | _ => rfl

/-! ## The slices of vectors that agree on a row's ranges -/

theorem agreeOn_single {hi lo : Nat} {w w' : FrameBits} :
    (∀ p ∈ (alwaysRow [⟨hi, lo⟩]).reads, agreeOn p w w') ↔ agreeOn ⟨hi, lo⟩ w w' := by
  simp [alwaysRow]

theorem agreeOn_pair {r₁ r₂ : BitRange} {w w' : FrameBits} :
    (∀ p ∈ (alwaysRow [r₁, r₂]).reads, agreeOn p w w') ↔ agreeOn r₁ w w' ∧ agreeOn r₂ w w' := by
  simp [alwaysRow]

theorem slice_eq_of_agree (hi lo : Nat) (hle : lo ≤ hi) {w w' : FrameBits} (h : ∀ p ∈ (alwaysRow [⟨hi, lo⟩]).reads, agreeOn p w w') :
    w.extractLsb hi lo = w'.extractLsb hi lo :=
  (agreeOn_iff_slice_eq hle).mp (agreeOn_single.mp h)

theorem agree_of_slice_eq {hi lo : Nat} (hle : lo ≤ hi) {w w' : FrameBits} (h : w.extractLsb hi lo = w'.extractLsb hi lo) :
    ∀ p ∈ (alwaysRow [⟨hi, lo⟩]).reads, agreeOn p w w' :=
  agreeOn_single.mpr ((agreeOn_iff_slice_eq hle).mpr h)

namespace Machine

/-- The verdict depends on the first six bytes' bits alone (R69). -/
theorem corruptedOf_decodeFrame_of_agree (o : Bool) {w w' : FrameBits} (h : agreeOn ⟨47, 0⟩ w w') :
    corruptedOf (decodeFrame o w) = corruptedOf (decodeFrame o w') := by
  have slice (hi lo : Nat) (hle : lo ≤ hi) (hhi : hi ≤ 47) : w.extractLsb hi lo = w'.extractLsb hi lo :=
    (agreeOn_iff_slice_eq hle).mp (h.mono (Nat.zero_le lo) hhi)
  have hA : sliceSwA w = sliceSwA w' := slice 45 44 (by decide) (by decide)
  have hB : sliceSwB w = sliceSwB w' := slice 47 46 (by decide) (by decide)
  apply corruptedOf_congr
  case hRX => exact slice 10 0 (by decide) (by decide)
  case hRY => exact slice 21 11 (by decide) (by decide)
  case hLX => exact slice 32 22 (by decide) (by decide)
  case hLY => exact slice 43 33 (by decide) (by decide)
  case hL => rw [decodeFrame_swL, decodeFrame_swL, hA, hB]
  case hR => rw [decodeFrame_swR, decodeFrame_swR, hA, hB]

/-- Buffers with the same first six bytes agree on the first 48 frame bits. -/
theorem agreeOn_of_first_bytes {b b' : FrameBuffer} (h : ∀ j : Fin 18, j < 6 → b[j] = b'[j]) :
    agreeOn ⟨47, 0⟩ (frameBits b) (frameBits b') := by
  intro k _ hk
  have hk : k ≤ 47 := hk
  have hbyte : b[k / 8]'(by omega) = b'[k / 8]'(by omega) := h ⟨k / 8, by omega⟩ (by rw [Fin.lt_def]; simp; omega)
  rw [frameBits_getLsbD b k (by omega), frameBits_getLsbD b' k (by omega), hbyte]

/-- The value of an operation depends on no bit outside its row's ranges (R57). -/
theorem valueOn_eq_of_agree (o : Bool) (i : Instr) {w w' : FrameBits} (h : ∀ p ∈ (tableRow o i).reads, agreeOn p w w') :
    i.valueOn o w = i.valueOn o w' := by
  cases i with
  | extChRX => exact congrArg Result.channel (slice_eq_of_agree 10 0 (by decide) h)
  | extChRY => exact congrArg Result.channel (slice_eq_of_agree 21 11 (by decide) h)
  | extChLX => exact congrArg Result.channel (slice_eq_of_agree 32 22 (by decide) h)
  | extChLY => exact congrArg Result.channel (slice_eq_of_agree 43 33 (by decide) h)
  | extSwA => exact congrArg Result.switch (slice_eq_of_agree 45 44 (by decide) h)
  | extSwB => exact congrArg Result.switch (slice_eq_of_agree 47 46 (by decide) h)
  | extX => exact congrArg (Result.delta ∘ s16) (slice_eq_of_agree 63 48 (by decide) h)
  | extY => exact congrArg (Result.delta ∘ s16) (slice_eq_of_agree 79 64 (by decide) h)
  | extZ => exact congrArg (Result.delta ∘ s16) (slice_eq_of_agree 95 80 (by decide) h)
  | extPressL => exact congrArg Result.press (slice_eq_of_agree 103 96 (by decide) h)
  | extPressR => exact congrArg Result.press (slice_eq_of_agree 111 104 (by decide) h)
  | extKey => exact congrArg Result.mask (slice_eq_of_agree 127 112 (by decide) h)
  | extRes => exact congrArg Result.mask (slice_eq_of_agree 143 128 (by decide) h)
  | mapSw =>
    obtain ⟨agreeA, agreeB⟩ := agreeOn_pair.mp h
    have hA : sliceSwA w = sliceSwA w' := (agreeOn_iff_slice_eq (by decide)).mp agreeA
    have hB : sliceSwB w = sliceSwB w' := (agreeOn_iff_slice_eq (by decide)).mp agreeB
    simp only [Instr.valueOn, hA, hB]
  | decode => exact congrArg (Result.frame ∘ decodeFrame o) (eq_of_agreeOn_all (agreeOn_single.mp h))
  | chkChRX => exact congrArg (Result.term ∘ inWindow) (slice_eq_of_agree 10 0 (by decide) h)
  | chkChRY => exact congrArg (Result.term ∘ inWindow) (slice_eq_of_agree 21 11 (by decide) h)
  | chkChLX => exact congrArg (Result.term ∘ inWindow) (slice_eq_of_agree 32 22 (by decide) h)
  | chkChLY => exact congrArg (Result.term ∘ inWindow) (slice_eq_of_agree 43 33 (by decide) h)
  | chkSwL =>
    cases o with
    | false => exact congrArg (Result.term ∘ switchPresent) (slice_eq_of_agree 47 46 (by decide) h)
    | true => exact congrArg (Result.term ∘ switchPresent) (slice_eq_of_agree 45 44 (by decide) h)
  | chkSwR =>
    cases o with
    | false => exact congrArg (Result.term ∘ switchPresent) (slice_eq_of_agree 45 44 (by decide) h)
    | true => exact congrArg (Result.term ∘ switchPresent) (slice_eq_of_agree 47 46 (by decide) h)
  | valid => exact congrArg Result.verdict (corruptedOf_decodeFrame_of_agree o (agreeOn_single.mp h))
  | _ => rfl

/-- The value of an extraction, of `MAP.sw` and of `DECODE` fixes every bit of its row's ranges (R57). -/
theorem agree_of_valueOn_eq (o : Bool) {i : Instr} (hi : i.extracts = true) {w w' : FrameBits} (h : i.valueOn o w = i.valueOn o w') :
    ∀ p ∈ (tableRow o i).reads, agreeOn p w w' := by
  cases i with
  | extChRX => exact agree_of_slice_eq (by decide) (Result.channel.inj h)
  | extChRY => exact agree_of_slice_eq (by decide) (Result.channel.inj h)
  | extChLX => exact agree_of_slice_eq (by decide) (Result.channel.inj h)
  | extChLY => exact agree_of_slice_eq (by decide) (Result.channel.inj h)
  | extSwA => exact agree_of_slice_eq (by decide) (Result.switch.inj h)
  | extSwB => exact agree_of_slice_eq (by decide) (Result.switch.inj h)
  | extX => exact agree_of_slice_eq (by decide) (s16_injective (Result.delta.inj h))
  | extY => exact agree_of_slice_eq (by decide) (s16_injective (Result.delta.inj h))
  | extZ => exact agree_of_slice_eq (by decide) (s16_injective (Result.delta.inj h))
  | extPressL => exact agree_of_slice_eq (by decide) (Result.press.inj h)
  | extPressR => exact agree_of_slice_eq (by decide) (Result.press.inj h)
  | extKey => exact agree_of_slice_eq (by decide) (Result.mask.inj h)
  | extRes => exact agree_of_slice_eq (by decide) (Result.mask.inj h)
  | mapSw =>
    obtain ⟨hl, hr⟩ := Result.switches.inj h
    obtain ⟨hA, hB⟩ := mapSwitches_injective (Prod.ext hl hr)
    exact agreeOn_pair.mpr ⟨(agreeOn_iff_slice_eq (by decide)).mpr hA, (agreeOn_iff_slice_eq (by decide)).mpr hB⟩
  | decode =>
    obtain rfl := decodeFrame_injective o (Result.frame.inj h)
    exact fun p _ k _ _ => rfl
  | _ => simp [Instr.extracts] at hi

end Machine

end Sys2Proof

namespace Sys2Proof.Proofs

open Machine

/-- Settles O13: the operation is the read of its value (`exec_reader`), which depends on its ranges alone (`valueOn_eq_of_agree`) and, for an extraction,
on every bit of them (`agree_of_valueOn_eq`). -/
theorem fieldIndependence : Obligations.FieldIndependence := by
  intro i s b b' hreads hformat
  have ho : i ≠ .obs := by rintro rfl; simp [tableRow, transactionRow] at hformat
  refine ⟨_, _, exec_produces_of_fb (exec_reader hreads ho _) rfl, exec_produces_of_fb (exec_reader hreads ho _) rfl, ?agree, ?differ⟩
  case agree => exact valueOn_eq_of_agree params.swLFirst i
  case differ =>
    rintro hextracts ⟨p, hp, hdiffer⟩ heq
    exact hdiffer (agree_of_valueOn_eq params.swLFirst hextracts heq p hp)

/-- Settles O21: the verdict by the six fields is `corruptedOf_eq_false_iff`, where the other switch order exchanges the two pairs; it reads the first six
bytes' bits alone. -/
theorem verdictInFrameBits : Obligations.VerdictInFrameBits := by
  have hexchange (w : FrameBits) : corruptedOf (decodeFrame false w) = corruptedOf (decodeFrame true w) := by
    rw [decodeFrame_false, corruptedOf_exchange_switches]
  refine ⟨?bits, fun w => (hexchange w).symm, ?sixBytes⟩
  case bits =>
    intro o w
    cases o with
    | true => exact corruptedOf_eq_false_iff _
    | false =>
      rw [hexchange]
      exact corruptedOf_eq_false_iff _
  case sixBytes => exact fun o b b' h => corruptedOf_decodeFrame_of_agree o (agreeOn_of_first_bytes h)

/-- Settles O31: a byte from the seventh on is none of the first six, which the verdict reads; and the worked window is decoded for either switch order. -/
theorem falseAcceptance : Obligations.FalseAcceptance := by
  constructor
  · intro o b j v hj
    refine corruptedOf_decodeFrame_of_agree o (agreeOn_of_first_bytes fun k hk => ?_)
    have hne : (j : Nat) ≠ k := Fin.val_ne_of_ne (hk.trans_le hj).ne'
    exact Vector.getElem_set_ne j.isLt k.isLt hne
  · intro o
    cases o with
    | false => decide
    | true => decide

/-- Settles O23: the verdict is a function of the six checked fields (`corruptedOf_congr`), and after a `LOAD` both outputs are functions of the operand. -/
theorem validatorReadsNothingElse : Obligations.ValidatorReadsNothingElse := by
  constructor
  · exact fun f x y z pl pr k r => corruptedOf_congr rfl rfl rfl rfl rfl rfl
  · intro s s' b
    have hfb (u : State) : (u.loadFb b).produceNothing.fb = some b := by simp
    refine ⟨_, _, exec_load b s, exec_load b s', frame_of_fb (hfb s), ?_, ?_⟩
    · rw [frame_of_fb (hfb s), frame_of_fb (hfb s')]
    · rw [corrupted_of_fb (hfb s), corrupted_of_fb (hfb s')]

end Sys2Proof.Proofs
end

section
/-! PROOFS. What every operation answers, said once (`exec_of_wellFormed`, `exec_of_illFormed`), and the statements about all of them
(10_state.md R10, R14; 42_block_operations.md R70 to R73; 60_exceptions.md R100). -/

namespace Sys2Proof

open Machine

/-- What a completing operation produces in a state (30_encoding.md R34, column "produces"). -/
def Instr.resultIn (i : Instr) (s : State) : Option Result :=
  match i with
  | .frame w => some (observationOf w)
  | .encode f => some (.bits (encodeFrame params.swLFirst f))
  | .rst => none
  | .load _ => none
  | .obs => some (s.outputOf .refused observationOf)
  | i => some (s.outputOf .undef (i.valueOn params.swLFirst))

/-! ## The operations that read `FB` -/

theorem fbAfter_of_readsFb {i : Instr} (h : i.readsFb = true) (fb : Option FrameBuffer) : i.fbAfter fb = fb := by
  cases i with
  | frame w => simp [Instr.readsFb] at h
  | rst => simp [Instr.readsFb] at h
  | load b => simp [Instr.readsFb] at h
  | _ => rfl

theorem resultIn_of_readsFb {i : Instr} (h : i.readsFb = true) (ho : i ≠ .obs) (s : State) :
    i.resultIn s = some (s.outputOf .undef (i.valueOn params.swLFirst)) := by
  cases i with
  | frame w => simp [Instr.readsFb] at h
  | encode f => simp [Instr.readsFb] at h
  | rst => simp [Instr.readsFb] at h
  | load b => simp [Instr.readsFb] at h
  | obs => exact absurd rfl ho
  | _ => rfl

theorem resultIn_obs (s : State) : Instr.obs.resultIn s = some (s.outputOf .refused observationOf) := rfl

theorem valueOn_ne_refused (o : Bool) (i : Instr) (w : FrameBits) : i.valueOn o w ≠ .refused := by
  cases i <;> exact nofun

/-! ## Every operation -/

/-- A well-formed operation completes in every state, and changes `FB` and `result` alone. -/
theorem exec_of_wellFormed {i : Instr} (h : i.wellFormed = true) (s : State) :
    exec i s = .next { s with fb := i.fbAfter s.fb, result := i.resultIn s } := by
  induction i using Instr.kindCases with
  | reader i hreads ho =>
    rw [exec_reader hreads ho, fbAfter_of_readsFb hreads, resultIn_of_readsFb hreads ho]
    rfl
  | obs => rfl
  | frame w => rfl
  | rst => rfl
  | load b => rfl
  | encode f => exact exec_encode_of_inRange h s

/-- The only ill-formed operation is `ENCODE` of a record with a field out of range, which is refused (R55). -/
theorem exec_of_illFormed {i : Instr} (h : i.wellFormed = false) (s : State) : exec i s = .refused .notAFrame := by
  cases i with
  | encode f => exact exec_encode_of_outOfRange h s
  | _ => simp [Instr.wellFormed] at h

/-- No operation raises anything (R100). -/
theorem exec_ne_fault (i : Instr) (s : State) (r : Fault) : exec i s ≠ .fault r := by
  cases h : i.wellFormed with
  | true => simp [exec_of_wellFormed h]
  | false => simp [exec_of_illFormed h]

/-- What a next state says of the operation: it is well formed, and the state is the one it leaves. -/
theorem exec_next_iff {i : Instr} {s t : State} :
    exec i s = .next t ↔ i.wellFormed = true ∧ t = { s with fb := i.fbAfter s.fb, result := i.resultIn s } := by
  cases h : i.wellFormed with
  | true => simp [exec_of_wellFormed h, eq_comm]
  | false => simp [exec_of_illFormed h]

/-- Only a wire frame, `LOAD` and `RST` write `FB` (R10; log 9). -/
theorem fbAfter_of_not_writer {i : Instr} (hframe : ∀ w, i ≠ .frame w) (hload : ∀ b, i ≠ .load b) (hrst : i ≠ .rst)
    (fb : Option FrameBuffer) : i.fbAfter fb = fb := by
  induction i using Instr.kindCases with
  | reader i hreads _ => exact fbAfter_of_readsFb hreads fb
  | obs => rfl
  | frame w => exact absurd rfl (hframe w)
  | rst => exact absurd rfl hrst
  | load b => exact absurd rfl (hload b)
  | encode f => rfl

/-- What is produced is the answer refused exactly when it is `OBS` that finds no frame (R72; log 12). -/
theorem resultIn_eq_refused_iff (i : Instr) (s : State) : i.resultIn s = some .refused ↔ i = .obs ∧ s.fb = none := by
  induction i using Instr.kindCases with
  | reader i hreads ho =>
    rw [resultIn_of_readsFb hreads ho]
    rcases outputOf_cases .undef (i.valueOn params.swLFirst) s with ⟨b, _, hvalue⟩ | ⟨_, hvalue⟩
    · simp [hvalue, valueOn_ne_refused, ho]
    · simp [hvalue, ho]
  | obs =>
    rcases outputOf_cases .refused observationOf s with ⟨b, hfb, hvalue⟩ | ⟨hfb, hvalue⟩
    · simp [resultIn_obs, hvalue, hfb, observationOf]
    · simp [resultIn_obs, hvalue, hfb]
  | frame w => exact ⟨nofun, fun h => nomatch h.1⟩
  | rst => exact ⟨nofun, fun h => nomatch h.1⟩
  | load b => exact ⟨nofun, fun h => nomatch h.1⟩
  | encode f => exact ⟨nofun, fun h => nomatch h.1⟩

/-! ## Sequences of operations -/

/-- A run of operations with a next state is a completing operation and then a run from where it leaves off. -/
theorem runOps_cons_next {i : Instr} {is : List Instr} {s t : State} (h : runOps (i :: is) s = .next t) :
    ∃ u, exec i s = .next u ∧ runOps is u = .next t := by
  rw [runOps] at h
  cases he : exec i s with
  | next u => exact ⟨u, rfl, by simpa [he] using h⟩
  | fault r => simp [he] at h
  | refused r => simp [he] at h

/-- A run leaves in `FB` what its operations leave there one after the other, and does not touch the channel (R26). -/
theorem runOps_fb_channel {is : List Instr} {s t : State} (h : runOps is s = .next t) :
    t.fb = fbAfterAll is s.fb ∧ t.channel = s.channel := by
  induction is generalizing s with
  | nil =>
    cases h
    exact ⟨rfl, rfl⟩
  | cons i is ih =>
    obtain ⟨u, hi, his⟩ := runOps_cons_next h
    obtain ⟨-, rfl⟩ := exec_next_iff.mp hi
    exact ih his

end Sys2Proof

namespace Sys2Proof.Proofs

open Machine

/-- Settles O29: the frame of an operation is `exec_next_iff`. -/
theorem operationFrame : Obligations.OperationFrame := by
  refine ⟨?frame, fun i fb hframe hload hrst => fbAfter_of_not_writer hframe hload hrst fb, fun w b fb => ⟨rfl, rfl, rfl⟩⟩
  case frame =>
    intro i s t h
    obtain ⟨-, rfl⟩ := exec_next_iff.mp h
    rfl

/-- Settles O30: an operation answers by its well-formedness alone (`exec_of_wellFormed`, `exec_of_illFormed`), and refused is `OBS`'s answer
(`resultIn_eq_refused_iff`). -/
theorem operationsRaiseNothing : Obligations.OperationsRaiseNothing := by
  refine ⟨exec_ne_fault, ?completes, ?stops⟩
  case completes => exact fun i s h => ⟨_, exec_of_wellFormed h s, resultIn_eq_refused_iff i s⟩
  case stops =>
    intro i s r
    cases h : i.wellFormed with
    | true => simp [exec_of_wellFormed h]
    | false => simp [exec_of_illFormed h, eq_comm]

/-- Settles O1: reads without a value are the laws of `undef`; an operation that gives `FB` one is a writer (`fbAfter_of_not_writer`) and not `RST`. -/
theorem resetLeavesNoFrame : Obligations.ResetLeavesNoFrame := by
  refine ⟨rfl, fun s => ⟨_, exec_rst s, rfl⟩, fun s => ⟨_, rfl, rfl⟩, ?undef, ?writers, ?zero⟩
  case undef =>
    intro s hfb
    refine ⟨frame_of_undef hfb, corrupted_of_undef hfb, exec_obs_of_undef hfb, fun i hreads ho => ?_⟩
    rw [exec_reader hreads ho, readFb_of_undef hfb]
    rfl
  case writers =>
    intro i s t hfb h ht
    obtain ⟨-, rfl⟩ := exec_next_iff.mp h
    by_contra hno
    obtain ⟨hload, hframe⟩ := not_or.mp hno
    have hkeeps : i ≠ .rst → i.fbAfter s.fb = s.fb := fun hrst =>
      fbAfter_of_not_writer (not_exists.mp hframe) (not_exists.mp hload) hrst s.fb
    by_cases hrst : i = .rst
    · exact ht (by rw [hrst]; rfl)
    · exact ht ((hkeeps hrst).trans hfb)
  case zero =>
    intro o
    cases o with
    | false => decide
    | true => decide

/-- Settles O24: `RST` leaves `FB` without a value, where the laws of `undef` say what the outputs and `OBS` answer. -/
theorem rstVoidsTheBuffer : Obligations.RstVoidsTheBuffer := by
  intro s
  have hfb : s.voidFb.produceNothing.fb = none := by simp
  exact ⟨_, exec_rst s, rfl, frame_of_undef hfb, corrupted_of_undef hfb, exec_rst _, exec_obs_of_undef hfb⟩

/-- Settles O26: `OBS` produces `observationOf` the frame vector, the frame with its own verdict, and leaves `FB` for the next `OBS`; without a frame it
answers refused (`exec_obs_of_undef`). -/
theorem obsPairsFrameAndVerdict : Obligations.ObsPairsFrameAndVerdict := by
  refine ⟨?observed, fun s hfb => exec_obs_of_undef hfb⟩
  case observed =>
    intro s b hfb
    have hagain : (s.produce (observationOf (frameBits b))).fb = some b := hfb
    exact ⟨_, _, _, exec_obs_of_fb hfb, rfl, rfl, rfl, exec_obs_of_fb hagain⟩

/-- Settles O27: the wire frame's bytes make up the frame vector (`frameBits_frameBytes`), so `OBS` after their `LOAD` observes that vector. -/
theorem wireFrameIsOneFrameCycle : Obligations.WireFrameIsOneFrameCycle := by
  intro s w
  refine ⟨frameBytes w, _, exec_frame w s, frameBits_frameBytes w, rfl, ?_⟩
  have hobs : exec .obs (s.loadFb (frameBytes w)).produceNothing =
      .next ((s.loadFb (frameBytes w)).produceNothing.produce (observationOf w)) := by
    rw [exec_obs_of_fb (b := frameBytes w) rfl, frameBits_frameBytes]
  simp only [runOps, exec_load, hobs]
  rfl

/-- Settles O28: `FB` after the run is `fbAfterAll` (`runOps_fb_channel`), and `OBS` observes what `FB` holds. -/
theorem observationsFollowTheLastLoad : Obligations.ObservationsFollowTheLastLoad := by
  intro is s t h
  obtain ⟨hfb, hchannel⟩ := runOps_fb_channel h
  refine ⟨hfb, hchannel, ?loaded, ?undef⟩
  case loaded => exact fun b hb => ⟨_, exec_obs_of_fb (hfb.trans hb), State.produce_result _ _⟩
  case undef => exact fun hnone => ⟨_, exec_obs_of_undef (hfb.trans hnone), State.produce_result _ _⟩

end Sys2Proof.Proofs
end

section
/-! PROOFS. The acquisition loop (43_environment_contract.md R81 to R90): one equation for each state, then one list of all that a step of the machine can
do (`Moves`). -/

namespace Sys2Proof.Machine

/-! ## The step in each state of the loop -/

theorem step_construct {s : State} (h : s.worker = .loop .construct) : step s = constructInstance Config.transportPresent s :=
  step_loop h

theorem step_workerStart {s : State} (h : s.worker = .loop .workerStart) :
    step s = .next ((s.receive (Config.draw s.draws)).goto .resetStart) :=
  step_loop h

theorem step_resetStart {s : State} (h : s.worker = .loop .resetStart) :
    step s = .next ((s.receive (Config.draw s.draws)).flush.goto .awaitFrame) :=
  step_loop h

theorem step_awaitFrame {s : State} (h : s.worker = .loop .awaitFrame) :
    step s = .next (awaitFrame params.transportTimeout (Config.draw s.draws) (s.receive (Config.draw s.draws))) :=
  step_loop h

theorem step_validate {s : State} (h : s.worker = .loop .validate) :
    step s = .next (validateStep (s.receive (Config.draw s.draws))) :=
  step_loop h

theorem step_publish {s : State} (h : s.worker = .loop .publish) :
    step s = .next (publishStep (s.receive (Config.draw s.draws))) :=
  step_loop h

theorem step_resetRecover {s : State} (h : s.worker = .loop .resetRecover) :
    step s = .next (((s.receive (Config.draw s.draws)).flush.setBackoff params.backoffUnits).goto .backoff) :=
  step_loop h

theorem step_backoff {s : State} (h : s.worker = .loop .backoff) :
    step s = .next (backoffStep (s.receive (Config.draw s.draws))) :=
  step_loop h

/-! ## The loop's operations, by the case they are in -/

theorem awaitFrame_of_received {timeout : Bool} {d : EnvDraw} {s : State} {b : FrameBuffer} {rest : List Byte}
    (h : s.transport.rx = b.toList ++ rest) :
    awaitFrame timeout d s = (((s.setRx rest).loadFb b).produceNothing).goto .validate := by
  simp only [awaitFrame, takeFrame_some_iff.mpr h]

theorem awaitFrame_of_few {timeout : Bool} {d : EnvDraw} {s : State} (h : s.transport.rx.length < 18) :
    awaitFrame timeout d s =
      if timeout && d.timesOut then (((s.setRx d.rxAfter).loadFb d.frame).produceNothing).goto .validate else s := by
  simp only [awaitFrame, takeFrame_none_iff.mpr h]

theorem validateStep_of_fb {s : State} {b : FrameBuffer} (h : s.fb = some b) :
    validateStep s = (s.produce (observationOf (frameBits b))).goto
      (if corruptedOf (decodeFrame params.swLFirst (frameBits b)) then .resetRecover else .publish) := by
  rw [← observe_of_fb h]
  simp only [validateStep, corrupted_of_fb h]
  cases corruptedOf (decodeFrame params.swLFirst (frameBits b)) with
  | false => rfl
  | true => rfl

theorem validateStep_of_undef {s : State} (h : s.fb = none) : validateStep s = s.produce .refused := by
  rw [← observe_of_undef h]
  simp only [validateStep, corrupted_of_undef h]

theorem publishStep_of_frame {s : State} {f : Frame} (h : s.frame = some f) : publishStep s = (s.broadcast f).goto .awaitFrame := by
  simp only [publishStep, h]

theorem publishStep_of_undef {s : State} (h : s.fb = none) : publishStep s = s.goto .awaitFrame := by
  simp only [publishStep, frame_of_undef h]

theorem backoffStep_of_elapsed {s : State} (h : s.backoffLeft = 0) : backoffStep s = s.goto .awaitFrame :=
  if_pos h

theorem backoffStep_of_left {s : State} (h : s.backoffLeft ≠ 0) : backoffStep s = s.setBackoff (s.backoffLeft - 1) :=
  if_neg h

/-- Eighteen received bytes or more are a frame and what follows it. -/
theorem exists_frame_of_length {bs : List Byte} (h : 18 ≤ bs.length) :
    ∃ b : FrameBuffer, b.toList = bs.take 18 ∧ bs = b.toList ++ bs.drop 18 := by
  refine ⟨⟨(bs.take 18).toArray, by simp [h]⟩, by simp [Vector.toList], by simp [Vector.toList]⟩

/-- The first 18 bytes of a frame's bytes and others are the frame's. -/
theorem take_frame (b : FrameBuffer) (rest : List Byte) : (b.toList ++ rest).take 18 = b.toList :=
  List.take_left' Vector.length_toList

/-- An observation's verdict is `corrupted`, and its frame the decoded one. -/
theorem exists_of_corrupted {s : State} {c : Bool} (h : s.corrupted = some c) :
    ∃ b, s.fb = some b ∧ corruptedOf (decodeFrame params.swLFirst (frameBits b)) = c := by
  cases hfb : s.fb with
  | none => simp [corrupted_of_undef hfb] at h
  | some b => exact ⟨b, rfl, by simpa [corrupted_of_fb hfb] using h⟩

/-- The bytes of `n + 1` draws are those of the first and then those of the `n` after it. -/
theorem flatMap_arrived_succ (k n : Nat) :
    ((List.range (n + 1)).flatMap fun j => (Config.draw (k + j)).arrived) =
      (Config.draw k).arrived ++ (List.range n).flatMap fun j => (Config.draw (k + 1 + j)).arrived := by
  rw [List.range_succ_eq_map, List.flatMap_cons, List.flatMap_map]
  simp only [Nat.add_zero, Nat.succ_eq_add_one, Nat.add_assoc, Nat.add_comm 1]

/-! ## The first two steps of a frame cycle (R73) -/

theorem step_loads_received {s : State} {b : FrameBuffer} {rest : List Byte} (hw : s.worker = .loop .awaitFrame)
    (hrx : s.transport.rx = b.toList ++ rest) :
    ∃ t, step s = .next t ∧ t.worker = .loop .validate ∧ t.fb = some b ∧ t.channel = s.channel ∧ t.publishes = s.publishes := by
  have hreceived : (s.receive (Config.draw s.draws)).transport.rx = b.toList ++ (rest ++ (Config.draw s.draws).arrived) := by
    simp [hrx]
  have hstep := step_awaitFrame hw
  rw [awaitFrame_of_received hreceived] at hstep
  exact ⟨_, hstep, rfl, rfl, rfl, rfl⟩

theorem step_validates {s : State} {b : FrameBuffer} (hw : s.worker = .loop .validate) (hfb : s.fb = some b) :
    ∃ t, step s = .next t ∧
      t.worker = .loop (if corruptedOf (decodeFrame params.swLFirst (frameBits b)) then .resetRecover else .publish) ∧
      t.fb = some b ∧ t.channel = s.channel ∧ t.publishes = s.publishes := by
  have hstep := step_validate hw
  rw [validateStep_of_fb (s := s.receive _) hfb] at hstep
  exact ⟨_, hstep, rfl, hfb, rfl, rfl⟩

/-! ## All that a step can do -/

/-- `Moves s d t`: a step from `s`, with the environment's draw `d`, can answer the next state `t`. One constructor for each way there is: the two of a
program (42_block_operations.md R75, log 23), construction (R90), and the rows of the loop's table (R81, R84, R86; log 27). -/
inductive Moves (s : State) (d : EnvDraw) : State → Prop where
  | idle (hworker : s.worker = .program []) : Moves s d s
  | transaction {x : Transaction} {ts : List Transaction} {i : Instr} {t : State} (hworker : s.worker = .program (x :: ts))
      (hfetch : fetchTransaction x = .ok i) (hexec : exec i (s.setProgram ts) = .next t) : Moves s d t
  | construct (hworker : s.worker = .loop .construct) :
      Moves s d (((s.voidFb.produceNothing).configureLine params.line).goto .workerStart)
  | workerStart (hworker : s.worker = .loop .workerStart) : Moves s d ((s.receive d).goto .resetStart)
  | resetStart (hworker : s.worker = .loop .resetStart) : Moves s d ((s.receive d).flush.goto .awaitFrame)
  | load {b : FrameBuffer} {rest : List Byte} (hworker : s.worker = .loop .awaitFrame)
      (hrx : s.transport.rx ++ d.arrived = b.toList ++ rest) :
      Moves s d (((((s.receive d).setRx rest).loadFb b).produceNothing).goto .validate)
  | loadDrawn (hworker : s.worker = .loop .awaitFrame) (hrx : (s.transport.rx ++ d.arrived).length < 18)
      (htimeout : params.transportTimeout = true) (hearly : d.timesOut = true) :
      Moves s d (((((s.receive d).setRx d.rxAfter).loadFb d.frame).produceNothing).goto .validate)
  | blocked (hworker : s.worker = .loop .awaitFrame) : Moves s d (s.receive d)
  | reject {b : FrameBuffer} (hworker : s.worker = .loop .validate) (hfb : s.fb = some b)
      (hbad : corruptedOf (decodeFrame params.swLFirst (frameBits b)) = true) :
      Moves s d (((s.receive d).produce (observationOf (frameBits b))).goto .resetRecover)
  | accept {b : FrameBuffer} (hworker : s.worker = .loop .validate) (hfb : s.fb = some b)
      (hgood : corruptedOf (decodeFrame params.swLFirst (frameBits b)) = false) :
      Moves s d (((s.receive d).produce (observationOf (frameBits b))).goto .publish)
  | unobserved (hworker : s.worker = .loop .validate) (hfb : s.fb = none) : Moves s d ((s.receive d).produce .refused)
  | broadcast {f : Frame} (hworker : s.worker = .loop .publish) (hframe : s.frame = some f) :
      Moves s d (((s.receive d).broadcast f).goto .awaitFrame)
  | unpublished (hworker : s.worker = .loop .publish) (hfb : s.fb = none) : Moves s d ((s.receive d).goto .awaitFrame)
  | recover (hworker : s.worker = .loop .resetRecover) :
      Moves s d (((s.receive d).flush.setBackoff params.backoffUnits).goto .backoff)
  | elapsed (hworker : s.worker = .loop .backoff) : Moves s d ((s.receive d).goto .awaitFrame)
  | tick (hworker : s.worker = .loop .backoff) : Moves s d ((s.receive d).setBackoff (s.backoffLeft - 1))

theorem moves_awaitFrame {s : State} {d : EnvDraw} (h : s.worker = .loop .awaitFrame) :
    Moves s d (awaitFrame params.transportTimeout d (s.receive d)) := by
  rcases awaitFrame_cases params.transportTimeout d (s.receive d) with ⟨b, rest, hrx, ht⟩ | ⟨hrx, hearly, ht⟩ | ⟨-, -, ht⟩
  · rw [ht]
    exact .load h hrx
  · obtain ⟨htimeout, hearly⟩ := Bool.and_eq_true_iff.mp hearly
    rw [ht]
    exact .loadDrawn h hrx htimeout hearly
  · rw [ht]
    exact .blocked h

theorem moves_validate {s : State} {d : EnvDraw} (h : s.worker = .loop .validate) : Moves s d (validateStep (s.receive d)) := by
  cases hfb : s.fb with
  | none =>
    rw [validateStep_of_undef (s := s.receive d) hfb]
    exact .unobserved h hfb
  | some b =>
    rw [validateStep_of_fb (s := s.receive d) hfb]
    cases hc : corruptedOf (decodeFrame params.swLFirst (frameBits b)) with
    | true => exact .reject h hfb hc
    | false => exact .accept h hfb hc

theorem moves_publish {s : State} {d : EnvDraw} (h : s.worker = .loop .publish) : Moves s d (publishStep (s.receive d)) := by
  cases hfb : s.fb with
  | none =>
    rw [publishStep_of_undef (s := s.receive d) hfb]
    exact .unpublished h hfb
  | some b =>
    have hframe := frame_of_fb hfb
    rw [publishStep_of_frame (s := s.receive d) hframe]
    exact .broadcast h hframe

theorem moves_backoff {s : State} {d : EnvDraw} (h : s.worker = .loop .backoff) : Moves s d (backoffStep (s.receive d)) := by
  by_cases hleft : s.backoffLeft = 0
  · rw [backoffStep_of_elapsed (s := s.receive d) hleft]
    exact .elapsed h
  · rw [backoffStep_of_left (s := s.receive d) hleft]
    exact .tick h

/-- Every next state of the loop past construction is one of the moves, and there is one. -/
theorem step_loop_moves {s : State} {st : LoopState} (h : s.worker = .loop st) (hst : st ≠ .construct) :
    ∃ t, step s = .next t ∧ Moves s (Config.draw s.draws) t := by
  cases st with
  | construct => exact absurd rfl hst
  | workerStart => exact ⟨_, step_workerStart h, .workerStart h⟩
  | resetStart => exact ⟨_, step_resetStart h, .resetStart h⟩
  | awaitFrame => exact ⟨_, step_awaitFrame h, moves_awaitFrame h⟩
  | validate => exact ⟨_, step_validate h, moves_validate h⟩
  | publish => exact ⟨_, step_publish h, moves_publish h⟩
  | resetRecover => exact ⟨_, step_resetRecover h, .recover h⟩
  | backoff => exact ⟨_, step_backoff h, moves_backoff h⟩

/-- Whatever a step answers as its next state is one of the moves. -/
theorem moves_of_step {s t : State} (h : step s = .next t) : Moves s (Config.draw s.draws) t := by
  cases hw : s.worker with
  | program ts =>
    cases ts with
    | nil =>
      rw [step_idle hw] at h
      cases h
      exact .idle hw
    | cons x ts =>
      cases hf : fetchTransaction x with
      | ok i => exact .transaction hw hf ((step_program hw hf).symm.trans h)
      | error r => simp [step_program_refused hw hf] at h
  | loop st =>
    by_cases hst : st = .construct
    · subst hst
      rw [step_construct hw] at h
      rcases constructInstance_cases Config.transportPresent s with ⟨-, hc⟩ | ⟨-, hc⟩
      · simp [hc] at h
      · rw [hc] at h
        cases h
        exact .construct hw
    · obtain ⟨u, hu, hmoves⟩ := step_loop_moves hw hst
      cases hu.symm.trans h
      exact hmoves

end Sys2Proof.Machine

namespace Sys2Proof.Proofs

open Machine

/-- Settles O32: the construction step is `constructInstance_cases`; past construction the loop has a next state (`step_loop_moves`), and a program's
operations raise nothing (`exec_ne_fault`). -/
theorem constructionNeedsTheTransport : Obligations.ConstructionNeedsTheTransport := by
  constructor
  · intro s h
    rw [step_construct h]
    rcases constructInstance_cases Config.transportPresent s with ⟨hp, hc⟩ | ⟨hp, hc⟩
    · rw [hc, hp]
      rfl
    · rw [hc, hp]
      rfl
  · intro s r hw h
    cases hworker : s.worker with
    | loop st =>
      have hst : st ≠ .construct := by rintro rfl; exact hw hworker
      obtain ⟨t, ht, -⟩ := step_loop_moves hworker hst
      cases ht.symm.trans h
    | program ts =>
      cases ts with
      | nil => cases (step_idle hworker).symm.trans h
      | cons x ts =>
        cases hf : fetchTransaction x with
        | ok i => exact exec_ne_fault i _ r ((step_program hworker hf).symm.trans h)
        | error e => cases (step_program_refused hworker hf).symm.trans h

/-- Settles O33, row by row: the step's equation in the row's state, and its operation in the row's case. -/
theorem loopTransitions : Obligations.LoopTransitions := by
  intro s
  refine ⟨?workerStart, ?resetStart, ?awaitFrame, ?accept, ?reject, ?unobserved, ?unpublished, ?broadcast, ?recover, ?elapsed, ?tick⟩
  case workerStart => exact step_workerStart
  case resetStart => exact fun h => step_resetStart h
  case awaitFrame =>
    intro h hlen
    obtain ⟨b, hb, hrx⟩ := exists_frame_of_length hlen
    refine ⟨b, hb, ?_⟩
    rw [step_awaitFrame h, awaitFrame_of_received (s := s.receive _) hrx]
    rfl
  case accept =>
    intro h hc
    obtain ⟨b, hfb, hgood⟩ := exists_of_corrupted hc
    refine ⟨_, frame_of_fb hfb, ?_⟩
    rw [step_validate h, validateStep_of_fb (s := s.receive _) hfb, observationOf, hgood]
    rfl
  case reject =>
    intro h hc
    obtain ⟨b, hfb, hbad⟩ := exists_of_corrupted hc
    refine ⟨_, frame_of_fb hfb, ?_⟩
    rw [step_validate h, validateStep_of_fb (s := s.receive _) hfb, observationOf, hbad]
    rfl
  case unobserved =>
    intro h hfb
    rw [step_validate h, validateStep_of_undef (s := s.receive _) hfb]
    rfl
  case unpublished =>
    intro h hfb
    rw [step_publish h, publishStep_of_undef (s := s.receive _) hfb]
    rfl
  case broadcast =>
    intro f h hf
    rw [step_publish h, publishStep_of_frame (s := s.receive _) hf]
    rfl
  case recover => exact step_resetRecover
  case elapsed =>
    intro h h0
    rw [step_backoff h, backoffStep_of_elapsed (s := s.receive _) h0]
    rfl
  case tick =>
    intro h h0
    rw [step_backoff h, backoffStep_of_left (s := s.receive _) h0]
    rfl

/-- Settles O34: the step's equation in `AWAIT_FRAME`, and `awaitFrame_of_few`. -/
theorem stalledLinkBlocks : Obligations.StalledLinkBlocks := by
  refine ⟨fun s h => step_awaitFrame h, ?few⟩
  case few =>
    intro timeout d s hlen
    rw [awaitFrame_of_few hlen]
    by_cases hearly : timeout = true ∧ d.timesOut = true
    · rw [if_pos hearly, if_pos (Bool.and_eq_true_iff.mpr hearly)]
      rfl
    · rw [if_neg hearly, if_neg (mt Bool.and_eq_true_iff.mp hearly)]

/-- Settles O37: of all moves only the broadcast of `PUBLISH` touches channel and count. -/
theorem onlyPublishReachesTheChannel : Obligations.OnlyPublishReachesTheChannel := by
  intro s t h
  constructor
  · intro f hw hf
    rw [step_publish hw, publishStep_of_frame (s := s.receive _) hf] at h
    cases h
    exact ⟨rfl, rfl⟩
  · intro hno
    cases moves_of_step h with
    | transaction hworker hfetch hexec =>
      obtain ⟨-, rfl⟩ := exec_next_iff.mp hexec
      exact ⟨rfl, rfl⟩
    | broadcast hworker hframe =>
      rcases hno with hw | hfb
      · exact absurd hworker hw
      · simp [frame_of_undef hfb] at hframe
    | _ => exact ⟨rfl, rfl⟩

/-- Settles O38: of all moves only construction, the two loads of `AWAIT_FRAME` and a program's writers (`fbAfter_of_not_writer`) touch `FB`. -/
theorem onlyLoadAndRstWriteTheBuffer : Obligations.OnlyLoadAndRstWriteTheBuffer := by
  intro s t h hne
  cases moves_of_step h with
  | construct hworker => exact .inl ⟨rfl, hworker⟩
  | @load b rest hworker hrx =>
    refine .inr (.inl ⟨hworker, rfl, ?_⟩)
    have hlen : 18 ≤ (s.transport.rx ++ (Config.draw s.draws).arrived).length := by simp [hrx]
    simp only [if_pos hlen]
    exact ⟨b, rfl, by rw [hrx, take_frame]⟩
  | loadDrawn hworker hrx htimeout hearly =>
    refine .inr (.inl ⟨hworker, rfl, ?_⟩)
    simp only [if_neg (Nat.not_le_of_lt hrx)]
    exact ⟨rfl, htimeout, hearly⟩
  | @transaction x ts i t hworker hfetch hexec =>
    refine .inr (.inr ⟨x, ts, i, hworker, hfetch, ?_⟩)
    obtain ⟨-, rfl⟩ := exec_next_iff.mp hexec
    induction i using Instr.kindCases with
    | reader i hreads _ => exact absurd (fbAfter_of_readsFb hreads _) hne
    | obs => exact absurd rfl hne
    | encode f => exact absurd rfl hne
    | rst => exact .inl ⟨rfl, rfl⟩
    | load b => exact .inr (.inl ⟨b, rfl, rfl⟩)
    | frame w => exact .inr (.inr ⟨w, rfl, rfl⟩)
  | _ => exact absurd rfl hne

/-- Settles O35: the three steps are the load of `AWAIT_FRAME` (`step_loads_received`), `VALIDATE` on the loaded frame (`step_validates`), and then
`PUBLISH` or `RESET_RECOVER`, by the verdict. -/
theorem frameCyclePublishesOnce : Obligations.FrameCyclePublishesOnce := by
  intro s b rest hw hrx
  obtain ⟨s₁, hstep₁, hw₁, hfb₁, hchannel₁, hpublishes₁⟩ := step_loads_received hw hrx
  obtain ⟨s₂, hstep₂, hw₂, hfb₂, hchannel₂, hpublishes₂⟩ := step_validates hw₁ hfb₁
  rw [core_run_succ hstep₁, core_run_succ hstep₂]
  dsimp only
  cases hc : corruptedOf (decodeFrame params.swLFirst (frameBits b)) with
  | true =>
    rw [hc] at hw₂
    exact ⟨_, core_run_succ (step_resetRecover hw₂) 0, hfb₂, rfl, hchannel₂.trans hchannel₁, hpublishes₂.trans hpublishes₁, rfl⟩
  | false =>
    rw [hc] at hw₂
    have hstep₃ := step_publish hw₂
    rw [publishStep_of_frame (s := s₂.receive _) (frame_of_fb hfb₂)] at hstep₃
    exact ⟨_, core_run_succ hstep₃ 0, hfb₂, rfl, rfl, congrArg (· + 1) (hpublishes₂.trans hpublishes₁)⟩

/-- Settles O36, by induction on the timer: each step receives one draw, and takes one unit or, with none left, leaves `BACKOFF`. -/
theorem backoffReturnsToAwaitFrame : Obligations.BackoffReturnsToAwaitFrame := by
  intro n
  induction n with
  | zero =>
    intro s hw hleft
    have hstep := step_backoff hw
    rw [backoffStep_of_elapsed (s := s.receive _) hleft] at hstep
    refine ⟨_, core_run_succ hstep 0, rfl, hleft, rfl, rfl, rfl, rfl, ?_⟩
    simp
  | succ n ih =>
    intro s hw hleft
    have hstep := step_backoff hw
    rw [backoffStep_of_left (s := s.receive _) (by simp [hleft])] at hstep
    generalize hu : (s.receive (Config.draw s.draws)).setBackoff _ = u at hstep
    have hleftu : u.backoffLeft = n := by simp [← hu, hleft]
    obtain ⟨t, hrun, hwt, hleftt, hfb, hchannel, hpublishes, hdraws, hrx⟩ := ih u (by rw [← hu]; exact hw) hleftu
    subst hu
    refine ⟨t, (core_run_succ hstep (n + 1)).trans hrun, hwt, hleftt, hfb, hchannel, hpublishes, ?_, ?_⟩
    · simp only [hdraws, State.setBackoff_draws, State.receive_draws]
      omega
    · rw [hrx, flatMap_arrived_succ s.draws]
      simp

end Sys2Proof.Proofs
end

section
/-! PROOFS. The invariant (43_environment_contract.md R81 to R90): every move keeps it, and past construction the loop always has a move (R82). -/

namespace Sys2Proof.Machine

/-! ## Values an operation can have produced -/

theorem valueOn_sound (o : Bool) (i : Instr) (w : FrameBits) : (i.valueOn o w).sound = true := by
  cases i with
  | extX => exact s16_inRange _
  | extY => exact s16_inRange _
  | extZ => exact s16_inRange _
  | decode => exact decodeFrame_inRange o w
  | _ => rfl

theorem observationOf_sound (w : FrameBits) : (observationOf w).sound = true := by
  simp [observationOf, Result.sound, decodeFrame_inRange]

theorem outputOf_sound {absent : Result} {g : FrameBits → Result} (habsent : absent.sound = true) (hg : ∀ w, (g w).sound = true)
    (s : State) : (s.outputOf absent g).sound = true := by
  rcases outputOf_cases absent g s with ⟨b, -, hvalue⟩ | ⟨-, hvalue⟩
  · rw [hvalue, hg]
  · rw [hvalue, habsent]

theorem resultIn_sound {i : Instr} {s : State} {r : Result} (h : i.resultIn s = some r) : r.sound = true := by
  induction i using Instr.kindCases with
  | reader i hreads ho =>
    rw [resultIn_of_readsFb hreads ho] at h
    cases h
    exact outputOf_sound rfl (valueOn_sound params.swLFirst i) s
  | obs =>
    cases h
    exact outputOf_sound rfl observationOf_sound s
  | frame w =>
    cases h
    exact observationOf_sound w
  | rst => cases h
  | load b => cases h
  | encode f =>
    cases h
    rfl

/-! ## The part of the invariant that does not speak of the worker -/

/-- The clauses of `State.Inv` on the channel, the value produced, the timer and the line. -/
structure State.Sound (s : State) : Prop where
  published : ∀ f, s.channel = some f → f.inRange = true ∧ corruptedOf f = false
  counted : s.channel = none ↔ s.publishes = 0
  produced : ∀ r, s.result = some r → r.sound = true
  bounded : s.backoffLeft ≤ params.backoffUnits
  configured : ∀ c, s.transport.line = some c → c = params.line

theorem State.Inv.sound {s : State} (h : s.Inv) : s.Sound :=
  ⟨h.published, h.counted, h.produced, h.bounded, h.configured⟩

/-- The worker's clauses complete the invariant. -/
theorem State.Sound.inv {s : State} (h : s.Sound) (hloaded : s.worker = .loop .validate → s.fb.isSome = true)
    (hvalidated : s.worker = .loop .publish → s.corrupted = some false)
    (hconstructed : ∀ st, s.worker = .loop st → st ≠ .construct → s.transport.line.isSome = true) : s.Inv :=
  ⟨hloaded, hvalidated, h.published, h.counted, h.produced, h.bounded, h.configured, hconstructed⟩

/-- The state keeps the clauses when it keeps the fields that they speak of. -/
theorem State.Sound.of_eq {s t : State} (h : s.Sound) (hchannel : t.channel = s.channel) (hpublishes : t.publishes = s.publishes)
    (hresult : t.result = s.result) (hbackoff : t.backoffLeft = s.backoffLeft) (hline : t.transport.line = s.transport.line) :
    t.Sound where
  published := hchannel ▸ h.published
  counted := hchannel ▸ hpublishes ▸ h.counted
  produced := hresult ▸ h.produced
  bounded := hbackoff ▸ h.bounded
  configured := hline ▸ h.configured

theorem State.Sound.receive {s : State} (h : s.Sound) (d : EnvDraw) : (s.receive d).Sound := h.of_eq rfl rfl rfl rfl rfl

theorem State.Sound.flush {s : State} (h : s.Sound) : s.flush.Sound := h.of_eq rfl rfl rfl rfl rfl

theorem State.Sound.setRx {s : State} (h : s.Sound) (bs : List Byte) : (s.setRx bs).Sound := h.of_eq rfl rfl rfl rfl rfl

theorem State.Sound.loadFb {s : State} (h : s.Sound) (b : FrameBuffer) : (s.loadFb b).Sound := h.of_eq rfl rfl rfl rfl rfl

theorem State.Sound.voidFb {s : State} (h : s.Sound) : s.voidFb.Sound := h.of_eq rfl rfl rfl rfl rfl

theorem State.Sound.goto {s : State} (h : s.Sound) (st : LoopState) : (s.goto st).Sound := h.of_eq rfl rfl rfl rfl rfl

theorem State.Sound.produceNothing {s : State} (h : s.Sound) : s.produceNothing.Sound :=
  { published := h.published, counted := h.counted, produced := nofun, bounded := h.bounded, configured := h.configured }

theorem State.Sound.produce {s : State} (h : s.Sound) {r : Result} (hr : r.sound = true) : (s.produce r).Sound :=
  { published := h.published, counted := h.counted, produced := fun _ he => Option.some.inj he ▸ hr, bounded := h.bounded,
    configured := h.configured }

theorem State.Sound.setBackoff {s : State} (h : s.Sound) {n : Nat} (hn : n ≤ params.backoffUnits) : (s.setBackoff n).Sound :=
  { published := h.published, counted := h.counted, produced := h.produced, bounded := hn, configured := h.configured }

theorem State.Sound.configureLine {s : State} (h : s.Sound) : (s.configureLine params.line).Sound :=
  { published := h.published, counted := h.counted, produced := h.produced, bounded := h.bounded,
    configured := fun _ he => (Option.some.inj he).symm }

theorem State.Sound.broadcast {s : State} (h : s.Sound) {f : Frame} (hrange : f.inRange = true) (hgood : corruptedOf f = false) :
    (s.broadcast f).Sound :=
  { published := fun _ he => Option.some.inj he ▸ ⟨hrange, hgood⟩, counted := ⟨nofun, nofun⟩, produced := h.produced,
    bounded := h.bounded, configured := h.configured }

/-! ## The invariant after a move -/

/-- Entering a state of the loop on a configured transport: what `VALIDATE` and `PUBLISH` rely on is asked for where it is entered. -/
theorem State.Sound.inv_goto {s : State} (h : s.Sound) {st : LoopState} (hline : s.transport.line.isSome = true)
    (hloaded : st = .validate → s.fb.isSome = true) (hvalidated : st = .publish → s.corrupted = some false) : (s.goto st).Inv :=
  (h.goto st).inv (fun hw => hloaded (Worker.loop.inj hw)) (fun hw => hvalidated (Worker.loop.inj hw)) (fun _ _ _ => hline)

theorem State.Inv.receive {s : State} (h : s.Inv) (d : EnvDraw) : (s.receive d).Inv :=
  (h.sound.receive d).inv h.loaded h.validated h.constructed

/-- A program's operation keeps the invariant, whose clauses on the worker are about the loop alone. -/
theorem State.Inv.exec {s t : State} {ts : List Transaction} {i : Instr} (h : s.Inv)
    (hexec : Machine.exec i (s.setProgram ts) = .next t) : t.Inv := by
  obtain ⟨-, rfl⟩ := exec_next_iff.mp hexec
  have hsound : State.Sound { s.setProgram ts with fb := i.fbAfter s.fb, result := i.resultIn (s.setProgram ts) } :=
    { published := h.published, counted := h.counted, produced := fun _ => resultIn_sound, bounded := h.bounded,
      configured := h.configured }
  exact hsound.inv nofun nofun nofun

/-- The frame that `PUBLISH` broadcasts is in range, and valid (R87). -/
theorem State.Inv.frame_valid {s : State} (h : s.Inv) (hw : s.worker = .loop .publish) {f : Frame} (hf : s.frame = some f) :
    f.inRange = true ∧ corruptedOf f = false := by
  obtain ⟨b, hfb, hgood⟩ := exists_of_corrupted (h.validated hw)
  cases (frame_of_fb hfb).symm.trans hf
  exact ⟨decodeFrame_inRange _ _, hgood⟩

theorem Moves.inv {s t : State} {d : EnvDraw} (hmoves : Moves s d t) (h : s.Inv) : t.Inv := by
  have hd := h.sound.receive d
  have hline {st : LoopState} (hw : s.worker = .loop st) (hst : st ≠ .construct) := h.constructed st hw hst
  cases hmoves with
  | idle => exact h
  | transaction hworker hfetch hexec => exact h.exec hexec
  | construct hworker => exact h.sound.voidFb.produceNothing.configureLine.inv_goto rfl nofun nofun
  | workerStart hworker => exact hd.inv_goto (hline hworker nofun) nofun nofun
  | resetStart hworker => exact hd.flush.inv_goto (hline hworker nofun) nofun nofun
  | @load b rest hworker hrx =>
    exact ((hd.setRx rest).loadFb b).produceNothing.inv_goto (hline hworker nofun) (fun _ => rfl) nofun
  | loadDrawn hworker hrx htimeout hearly =>
    exact ((hd.setRx d.rxAfter).loadFb d.frame).produceNothing.inv_goto (hline hworker nofun) (fun _ => rfl) nofun
  | blocked hworker => exact h.receive d
  | @reject b hworker hfb hbad => exact (hd.produce (observationOf_sound _)).inv_goto (hline hworker nofun) nofun nofun
  | @accept b hworker hfb hgood =>
    have hvalid : s.corrupted = some false := by rw [corrupted_of_fb hfb, hgood]
    exact (hd.produce (observationOf_sound _)).inv_goto (hline hworker nofun) nofun (fun _ => hvalid)
  | unobserved hworker hfb =>
    have hloaded := h.loaded hworker
    simp [hfb] at hloaded
  | broadcast hworker hframe =>
    obtain ⟨hrange, hgood⟩ := h.frame_valid hworker hframe
    exact (hd.broadcast hrange hgood).inv_goto (hline hworker nofun) nofun nofun
  | unpublished hworker hfb => exact hd.inv_goto (hline hworker nofun) nofun nofun
  | recover hworker => exact (hd.flush.setBackoff le_rfl).inv_goto (hline hworker nofun) nofun nofun
  | elapsed hworker => exact hd.inv_goto (hline hworker nofun) nofun nofun
  | tick hworker =>
    exact (hd.setBackoff ((Nat.sub_le _ _).trans h.bounded)).inv (h.receive d).loaded (h.receive d).validated (h.receive d).constructed

/-- From past construction every move of the loop stays past construction. -/
theorem Moves.past_construction {s t : State} {d : EnvDraw} (hmoves : Moves s d t) {st : LoopState} (hw : s.worker = .loop st)
    (hst : st ≠ .construct) : ∃ st', t.worker = .loop st' ∧ st' ≠ .construct := by
  cases hmoves with
  | idle hworker => cases hw.symm.trans hworker
  | transaction hworker hfetch hexec => cases hw.symm.trans hworker
  | blocked => exact ⟨st, hw, hst⟩
  | unobserved => exact ⟨st, hw, hst⟩
  | tick => exact ⟨st, hw, hst⟩
  | _ => exact ⟨_, rfl, nofun⟩

end Sys2Proof.Machine

namespace Sys2Proof.Proofs

open Machine

/-- Settles O39: a step is one of the moves (`moves_of_step`), and each of them keeps the invariant (`Moves.inv`). -/
theorem stepKeepsTheInvariant : Obligations.StepKeepsTheInvariant :=
  fun _ _ h hstep => (moves_of_step hstep).inv h

/-- Settles O40: at reset nothing has been produced, published or configured, and the worker is at the construction step. -/
theorem resetMeetsTheInvariant : Obligations.ResetMeetsTheInvariant where
  loaded := nofun
  validated := nofun
  published := nofun
  counted := ⟨fun _ => rfl, fun _ => rfl⟩
  produced := nofun
  bounded := Nat.zero_le _
  configured := nofun
  constructed := fun _ hw hst => absurd (Worker.loop.inj hw).symm hst

/-- Settles O41, by induction on the number of steps: the loop past construction has a next state (`step_loop_moves`), which meets the invariant
(`Moves.inv`) and is past construction (`Moves.past_construction`). -/
theorem loopHasNoTerminalState : Obligations.LoopHasNoTerminalState := by
  intro n
  induction n with
  | zero => exact fun s st h hw hst => ⟨s, st, rfl, h, hw, hst⟩
  | succ n ih =>
    intro s st h hw hst
    obtain ⟨u, hstep, hmoves⟩ := step_loop_moves hw hst
    obtain ⟨st₁, hw₁, hst₁⟩ := hmoves.past_construction hw hst
    obtain ⟨t, st', hrun, hrest⟩ := ih u st₁ (hmoves.inv h) hw₁ hst₁
    exact ⟨t, st', (core_run_succ hstep n).trans hrun, hrest⟩

end Sys2Proof.Proofs
end

section
/-! PROOFS. The modifier codes do not collide (43_environment_contract.md R92). -/

namespace Sys2Proof.Proofs

open Machine

/-- The number of base codes (decision D20). -/
theorem nKeycodes_eq : nKeycodes = 26 := rfl

/-- Base codes are less than one key-code space apart, so codes shifted by different multiples of it differ. -/
theorem add_mul_ne_of_isBaseCode {k k' : Int} (hk : isBaseCode k) (hk' : isBaseCode k') {m m' : Int} (hm : m < m') :
    k + m * nKeycodes ≠ k' + m' * nKeycodes := by
  obtain ⟨hlow, hhigh⟩ := hk
  obtain ⟨hlow', hhigh'⟩ := hk'
  rw [nKeycodes_eq] at hhigh hhigh' ⊢
  omega

/-- Settles O42: each modifier adds a multiple of the key-code space of its own (`add_mul_ne_of_isBaseCode`). -/
theorem modifierCodesAreDisjoint : Obligations.ModifierCodesAreDisjoint := by
  constructor
  · exact fun k => ⟨rfl, rfl, rfl⟩
  · intro k k' hk hk'
    have hshift (c : Int) : shiftWith c = c + 1 * nKeycodes := by rw [one_mul]; rfl
    have hbase (c : Int) : c = c + 0 * nKeycodes := by rw [zero_mul, add_zero]
    have hdisjoint {m m' : Int} := add_mul_ne_of_isBaseCode hk hk' (m := m) (m' := m')
    refine ⟨add_right_cancel, add_right_cancel, add_right_cancel, ?baseShift, ?baseCtrl, ?baseShiftCtrl, ?shiftCtrl, ?shiftShiftCtrl, ?ctrlShiftCtrl⟩
    case baseShift => rw [hbase k, hshift]; exact hdisjoint (by decide)
    case baseCtrl => rw [hbase k]; exact hdisjoint (by decide)
    case baseShiftCtrl => rw [hbase k]; exact hdisjoint (by decide)
    case shiftCtrl => rw [hshift]; exact hdisjoint (by decide)
    case shiftShiftCtrl => rw [hshift]; exact hdisjoint (by decide)
    case ctrlShiftCtrl => exact hdisjoint (by decide)

end Sys2Proof.Proofs
end
